-- ==== Sys2Proof/Word.lean ====
section
/-! DEFINITION. The unit of data of the codec block: the byte (00_scope.md R8). -/

namespace Sys2Proof

/-- A byte: 8 bits, an unsigned value 0 to 255, bit 7 the most significant (R8, R41). `b.extractLsb hi lo` is the
spec's `b[hi:lo]`. -/
abbrev Byte := BitVec 8

end Sys2Proof
end

