-- ==== Sys2Proof/Syntax.lean ====
section
/-! DEFINITION. Packet values, frames, operands and the instructions: one constructor of `Instr` for each row of
spec/opcode_table.json. -/

namespace Sys2Proof

/-- A packet value `(type; data; opt)` (00_scope.md R11). The lengths are not bounded by the type: `ENCODE` is the
operation that tests them (40_crc_framing.md R104). -/
structure Packet where
  ptype : Byte
  data  : List Byte
  opt   : List Byte
  deriving DecidableEq, Repr

/-- A frame as it stands on the wire (30_encoding.md R60): packet type, header CRC8 byte, data bytes, optional bytes and
data CRC8 byte. The sync byte is fixed and the two length fields are the lengths of `data` and `opt`. The two checksum
bytes are whatever the wire carries: `PARSE` is what compares them with the computed ones. -/
structure Frame where
  ftype : Byte
  hcrc  : Byte
  data  : List Byte
  opt   : List Byte
  dcrc  : Byte
  deriving DecidableEq, Repr

/-- The four variants of a decoded packet (30_encoding.md R74). -/
inductive Tag where
  | generic
  | radio
  | uteTeachIn
  | bs4TeachIn
  deriving DecidableEq, Repr, Inhabited

/-- The operand "packet p" (30_encoding.md R78, 41_packet_model.md R119): a packet value the host passes, or `PKT`, the
result registers. -/
inductive PktOperand where
  | value (p : Packet)
  | pkt
  deriving DecidableEq, Repr

/-- An address operand (R11, R42): bytes in wire order. Its length is an operand check of the operation, not a bound of
the type (44_responder.md R171, R172, R174). -/
abbrev Address := List Byte

/-- The instructions. The first thirty are the operations of 30_encoding.md R78. The last five are the frame rows of the
opcode table (R60, R74): a frame arriving on a fresh buffer (notes/assumptions/8.md). -/
inductive Instr where
  | reset
  | push (s : List Byte)
  | parse
  | encode (p : PktOperand)
  | crc8 (s : List Byte)
  | classify (p : PktOperand)
  | radioRorg (p : PktOperand)
  | radioSender (p : PktOperand)
  | radioDest (p : PktOperand)
  | radioStatus (p : PktOperand)
  | uteBidir (p : PktOperand)
  | uteRespexp (p : PktOperand)
  | uteReqtype (p : PktOperand)
  | uteFlags (p : PktOperand)
  | uteTeachin (p : PktOperand)
  | uteDelete (p : PktOperand)
  | uteNchan (p : PktOperand)
  | uteManuf (p : PktOperand)
  | uteEeprorg (p : PktOperand)
  | uteFunc (p : PktOperand)
  | uteType (p : PktOperand)
  | uteCeep (p : PktOperand)
  | bs4Learn (p : PktOperand)
  | bs4Func (p : PktOperand)
  | bs4Type (p : PktOperand)
  | bs4Manuf (p : PktOperand)
  | bs4Ceep (p : PktOperand)
  | uteResp (p : PktOperand) (la : Address)
  | bs4Resp (p : PktOperand) (la : Address)
  | respond (p : PktOperand) (en : Bool) (la : Address)
  | frameEsp3 (f : Frame)
  | variantGeneric (p : Packet)
  | variantUteTeachIn (p : Packet)
  | variantBs4TeachIn (p : Packet)
  | variantRadio (p : Packet)
  deriving DecidableEq, Repr

end Sys2Proof
end

