-- ==== Sys2Proof/Config.lean ====
section
/-! DEFINITION. What an implementation of the block fixes when it is built (00_scope.md R5, the open rows) and the free
values of the registers the spec leaves unspecified (93_implementation_defined.md U10). The constants with one value
stand in Machine/Constants.lean. -/

namespace Sys2Proof

/-- P_CRC_DISCARD (R5, D4): how much of the buffer `PARSE` discards on a checksum mismatch. -/
inductive CrcDiscard where
  /-- the garbage and the whole declared frame (the default) -/
  | wholeFrame
  /-- the garbage and the sync byte alone -/
  | syncOnly
  deriving DecidableEq, Repr

/-- The open parameters of R5. They are fixed when the block is built and no operation reads or writes them as state
(10_state.md R29); `State` carries them so that one step function serves every build (notes/assumptions/6.md). -/
structure Params where
  /-- RXBUF_CAP: `none` is unbounded (D3). -/
  rxbufCap : Option Nat
  /-- P_CRC_DISCARD (D4). -/
  crcDiscard : CrcDiscard
  /-- The `teach_in` half of P_UTE_TEACHIN_DECODE (42_ute_fields.md R145, D8) as a truth table: bit
  `request_type * 16 + flags`. -/
  teachInTable : BitVec 64
  /-- The `delete` half of P_UTE_TEACHIN_DECODE, in the same layout. -/
  deleteTable : BitVec 64
  deriving DecidableEq, Repr

/-- FREE VALUE: what PKT_TAG holds after the n-th time it became unspecified (U10; notes/assumptions/4.md). -/
opaque Config.freeTag : Nat → Tag
/-- FREE VALUE: what PKT_TYPE holds after the n-th time it became unspecified (U10). -/
opaque Config.freeType : Nat → Byte
/-- FREE VALUE: the bytes PKT_DATA holds after the n-th time it became unspecified (U10); the register keeps the length
bound of 10_state.md R20, so at most the first 65535 of them are used. -/
opaque Config.freeData : Nat → List Byte
/-- FREE VALUE: the bytes PKT_OPT holds after the n-th time it became unspecified (U10), at most the first 255 of them. -/
opaque Config.freeOpt : Nat → List Byte

end Sys2Proof
end

