-- ==== Sys2Proof/Machine/Constants.lean ====
section
/-! DEFINITION. The constants of 00_scope.md R5 (its "fixed", "derived" and "decided" rows), each under its name, and the
spec's default parameters. -/

namespace Sys2Proof.Config

/-- SYNC (30_encoding.md R60). -/
abbrev sync : Byte := 0x55
/-- HDR_LEN: sync byte, two data length bytes, optional length, packet type, header CRC8. -/
abbrev hdrLen : Nat := 6
/-- MAX_DATA_LEN. -/
abbrev maxDataLen : Nat := 65535
/-- MAX_OPT_LEN. -/
abbrev maxOptLen : Nat := 255
/-- MAX_FRAME_LEN = 6 + 65535 + 255 + 1. -/
abbrev maxFrameLen : Nat := 65797
/-- CRC8_POLY: x^8 + x^2 + x + 1 without its leading term (40_crc_framing.md R100). -/
abbrev crc8Poly : Byte := 0x07
/-- The CRC's initial value (R100). -/
abbrev crc8Init : Byte := 0x00
/-- PT_RADIO_ERP1, the one packet type the block distinguishes (R62). -/
abbrev ptRadioErp1 : Byte := 0x01
/-- PT_RESPONSE (general knowledge G2; no rule depends on it). -/
abbrev ptResponse : Byte := 0x02
/-- PT_COMMON_COMMAND (general knowledge G2; no rule depends on it). -/
abbrev ptCommonCommand : Byte := 0x05
/-- PT_SMART_ACK_COMMAND (general knowledge G2; no rule depends on it). -/
abbrev ptSmartAckCommand : Byte := 0x06
/-- RORG_UTE (R65). -/
abbrev rorgUte : Byte := 0xD4
/-- RORG_BS4 (R65). -/
abbrev rorgBs4 : Byte := 0xA5
/-- RORG_VLD (R65; a plain radio packet to the block). -/
abbrev rorgVld : Byte := 0xD2
/-- BROADCAST (R64). -/
abbrev broadcast : Address := [0xFF, 0xFF, 0xFF, 0xFF]
/-- The length of an address (R11). -/
abbrev addressLen : Nat := 4
/-- The least data length of a well-formed radio packet (R63, D16). -/
abbrev radioMinLen : Nat := 6
/-- UTE_DATA_LEN (R66). -/
abbrev uteDataLen : Nat := 13
/-- BS4_DATA_LEN (R71). -/
abbrev bs4DataLen : Nat := 10
/-- ERP1_OPT_LEN (R64). -/
abbrev erp1OptLen : Nat := 7
/-- UTE_RESP_DB6 (R68; bit 6 and bits 3-0 are the spec's decision D9). -/
abbrev uteRespDb6 : Byte := 0x91
/-- BS4_RESP_DB0 (R73, D13). -/
abbrev bs4RespDb0 : Byte := 0xF0
/-- RESP_SUBTEL (R76, D10). -/
abbrev respSubtel : Byte := 0x03
/-- RESP_DBM (R76, D10). -/
abbrev respDbm : Byte := 0xFF
/-- RESP_SEC (R76, D10). -/
abbrev respSec : Byte := 0x00
/-- RESP_STATUS (R76, D11). -/
abbrev respStatus : Byte := 0x00

end Sys2Proof.Config

namespace Sys2Proof

/-- The parameters at their defaults (R5): RXBUF_CAP unbounded as in the source (D3), P_CRC_DISCARD = WHOLE_FRAME (D4),
P_UTE_TEACHIN_DECODE the default of 42_ute_fields.md R145: `delete` exactly for request type `0b01` (bits 16 to 31 of its
table) and `teach_in` for the other three. -/
def defaultParams : Params where
  rxbufCap := none
  crcDiscard := .wholeFrame
  teachInTable := 0xFFFFFFFF0000FFFF
  deleteTable := 0x00000000FFFF0000

/-- P_UTE_TEACHIN_DECODE as R145 uses it: (request_type, flags) to (teach_in, delete). -/
def teachInDecode (P : Params) (requestType : BitVec 2) (flags : BitVec 4) : BitVec 1 × BitVec 1 :=
  let k := requestType.toNat * 16 + flags.toNat
  (P.teachInTable.extractLsb' k 1, P.deleteTable.extractLsb' k 1)

/-- What R5 and R145 require of the parameters: a finite RXBUF_CAP is at least MAX_FRAME_LEN, and
P_UTE_TEACHIN_DECODE(0b10, 0b0000) = (1, 0). -/
def paramsLegal (P : Params) : Bool :=
  (match P.rxbufCap with
    | none => true
    | some cap => decide (Config.maxFrameLen ≤ cap))
  && teachInDecode P 2 0 == (1, 0)

/-- Whether a buffer of `n` bytes fits RXBUF_CAP. -/
def fitsCap (cap : Option Nat) (n : Nat) : Bool :=
  match cap with
  | none => true
  | some c => decide (n ≤ c)

end Sys2Proof
end

