-- ==== Sys2Proof/Machine/Packets.lean ====
section
/-! DEFINITION. Pure functions of packets and frames that the decoder and the operations share: the frame layout
(30_encoding.md R60), the variant decode (R74, 41_packet_model.md R120) and the well-formed telegram tests (R63, R140,
R160). -/

namespace Sys2Proof

/-- The high byte of the big-endian data length field (20_memory.md R40). -/
def lenHigh (n : Nat) : Byte := BitVec.ofNat 8 (n / 256)

/-- The low byte of the big-endian data length field, and the optional length field (R40, R60). -/
def lenLow (n : Nat) : Byte := BitVec.ofNat 8 n

/-- `dlen = F[1] * 256 + F[2]` (R40). -/
def dataLen (hi lo : Byte) : Nat := hi.toNat * 256 + lo.toNat

/-- `L = 6 + dlen + olen + 1`, the length of a frame (30_encoding.md R61). -/
def frameLen (dlen olen : Nat) : Nat := Config.hdrLen + dlen + olen + 1

/-- The four header bytes the header CRC8 covers: data length, optional length, packet type (R60, R104's `H`). -/
def headerBytes (t : Byte) (dlen olen : Nat) : List Byte :=
  [lenHigh dlen, lenLow dlen, lenLow olen, t]

/-- The packet value a frame carries (R60). -/
def framePacket (f : Frame) : Packet := ⟨f.ftype, f.data, f.opt⟩

/-- The frame of a packet: both checksum bytes computed (40_crc_framing.md R104). -/
def frameOf (p : Packet) : Frame where
  ftype := p.ptype
  hcrc := crc8 (headerBytes p.ptype p.data.length p.opt.length)
  data := p.data
  opt := p.opt
  dcrc := crc8 (p.data ++ p.opt)

/-- The bytes of a frame in wire order (R60). -/
def frameBytes (f : Frame) : List Byte :=
  [Config.sync] ++ headerBytes f.ftype f.data.length f.opt.length ++ [f.hcrc] ++ f.data ++ f.opt ++ [f.dcrc]

/-- Whether both checksum bytes of a frame are the computed ones (R60). -/
def checksumsRight (f : Frame) : Bool := f == frameOf (framePacket f)

/-- Whether the lengths of a packet fit their header fields (R11, R104, D24). -/
def lengthsFit (p : Packet) : Bool :=
  decide (p.data.length ≤ Config.maxDataLen) && decide (p.opt.length ≤ Config.maxOptLen)

/-- The query discriminator, bit 3 of data byte 4, where that byte exists (R71, R74). -/
def queryBit (data : List Byte) : Option Bool := data[4]?.map (fun b => b.getLsbD 3)

/-- `CLASSIFY` as a function (R74, R120): first match wins; the telegram's length and `opt` play no part. -/
def classifyPacket (p : Packet) : Tag :=
  if p.ptype ≠ Config.ptRadioErp1 then .generic
  else if p.data[0]? = some Config.rorgUte then .uteTeachIn
  else if p.data[0]? = some Config.rorgBs4 ∧ queryBit p.data = some false then .bs4TeachIn
  else .radio

/-- The test `require_ute` (42_ute_fields.md R140): type 0x01, 13 data bytes, first byte 0xD4. -/
def isUteTelegram (p : Packet) : Bool :=
  p.ptype == Config.ptRadioErp1 && p.data.length == Config.uteDataLen && p.data[0]? == some Config.rorgUte

/-- The test `require_bs4` (43_bs4_fields.md R160): type 0x01, 10 data bytes, first byte 0xA5. -/
def isBs4Telegram (p : Packet) : Bool :=
  p.ptype == Config.ptRadioErp1 && p.data.length == Config.bs4DataLen && p.data[0]? == some Config.rorgBs4

/-- A well-formed radio packet (30_encoding.md R63): type 0x01 and at least 6 data bytes. -/
def isRadioTelegram (p : Packet) : Bool :=
  p.ptype == Config.ptRadioErp1 && decide (Config.radioMinLen ≤ p.data.length)

end Sys2Proof
end

