-- ==== Sys2Proof/WellFormed.lean ====
section
/-! DEFINITION. Which instructions the encodings admit. Every operation of 30_encoding.md R78 admits every operand (a
wrong one is a fault of the operation, not an ill-formed instruction); the frame rows admit the frames their row
describes. -/

namespace Sys2Proof

/-- A frame row of the table admits a packet of its variant whose lengths fit their header fields (R60, R74). -/
def variantAdmits (t : Tag) (p : Packet) : Bool := lengthsFit p && classifyPacket p == t

/-- Well-formedness. `frameEsp3` stands for a frame that no VARIANT row describes: lengths in range and a checksum that
is not right; a frame with both checksums right is written with its VARIANT constructor (notes/assumptions/8.md). -/
def Instr.wf : Instr → Bool
  | .reset => true
  | .push _ => true
  | .parse => true
  | .encode _ => true
  | .crc8 _ => true
  | .classify _ => true
  | .radioRorg _ => true
  | .radioSender _ => true
  | .radioDest _ => true
  | .radioStatus _ => true
  | .uteBidir _ => true
  | .uteRespexp _ => true
  | .uteReqtype _ => true
  | .uteFlags _ => true
  | .uteTeachin _ => true
  | .uteDelete _ => true
  | .uteNchan _ => true
  | .uteManuf _ => true
  | .uteEeprorg _ => true
  | .uteFunc _ => true
  | .uteType _ => true
  | .uteCeep _ => true
  | .bs4Learn _ => true
  | .bs4Func _ => true
  | .bs4Type _ => true
  | .bs4Manuf _ => true
  | .bs4Ceep _ => true
  | .uteResp _ _ => true
  | .bs4Resp _ _ => true
  | .respond _ _ _ => true
  | .frameEsp3 f => lengthsFit (framePacket f) && !checksumsRight f
  | .variantGeneric p => variantAdmits .generic p
  | .variantUteTeachIn p => variantAdmits .uteTeachIn p
  | .variantBs4TeachIn p => variantAdmits .bs4TeachIn p
  | .variantRadio p => variantAdmits .radio p

end Sys2Proof
end

