-- ==== Sys2Proof/Decode.lean ====
section
/-! DEFINITION. From a command's bytes to an instruction, and back.

A command is one byte string the host hands to the block. A first byte 0x00 to 0x3F is the 6-bit select code OP of
30_encoding.md R78 and the operands follow it; a first byte 0x55 is a frame (R60). The spec fixes the OP codes and the
frame, and not how operands travel (D1, D2): the operand layout below is the model's own (DESIGN CHOICE,
notes/assumptions/1.md).
  byte sequence   each byte preceded by the marker 01, then the marker 00
  packet          form byte 00, then type, data sequence, optional sequence; or form byte 01 for PKT
  bit             one byte, 00 or 01
  address         a byte sequence
Zero bytes may follow the last operand (notes/assumptions/10.md). -/

namespace Sys2Proof

/-- Why a command's bytes are not a transfer of the model's own format (no rule of the spec speaks of them). -/
inductive Malformed where
  /-- no byte at all -/
  | empty
  /-- the first byte is neither an OP code (00 to 3F) nor the sync byte -/
  | firstByte (b : Byte)
  /-- a marker, form or bit byte has no such value, or the bytes end inside an operand -/
  | operand
  /-- a frame transfer ends before the length its header declares (R61) -/
  | cutFrame
  /-- a byte other than zero follows the last operand -/
  | trailing
  deriving DecidableEq, Repr

/-- The two ways a command names no instruction: an OP code R78 does not list (the block's own fault `IllegalOp`), or a
malformed transfer (refused by the model). -/
inductive DecodeError where
  | illegalOp (code : BitVec 6)
  | malformed (why : Malformed)
  deriving DecidableEq, Repr

/-- Reads a byte sequence operand; answers it with the bytes after it. -/
def takeSeq : List Byte → Except DecodeError (List Byte × List Byte)
  | [] => .error (.malformed .operand)
  | m :: rest =>
    if m = 0 then .ok ([], rest)
    else if m = 1 then
      match rest with
      | [] => .error (.malformed .operand)
      | b :: more =>
        match takeSeq more with
        | .ok (bs, after) => .ok (b :: bs, after)
        | .error e => .error e
    else .error (.malformed .operand)

/-- Reads a packet operand. -/
def takePacket : List Byte → Except DecodeError (PktOperand × List Byte)
  | [] => .error (.malformed .operand)
  | form :: rest =>
    if form = 1 then .ok (.pkt, rest)
    else if form = 0 then
      match rest with
      | [] => .error (.malformed .operand)
      | t :: more =>
        match takeSeq more with
        | .error e => .error e
        | .ok (data, more') =>
          match takeSeq more' with
          | .error e => .error e
          | .ok (opt, after) => .ok (.value ⟨t, data, opt⟩, after)
    else .error (.malformed .operand)

/-- Reads a bit operand. -/
def takeBit : List Byte → Except DecodeError (Bool × List Byte)
  | [] => .error (.malformed .operand)
  | b :: rest =>
    if b = 0 then .ok (false, rest)
    else if b = 1 then .ok (true, rest)
    else .error (.malformed .operand)

/-- The operand shapes of R78, each with the instruction it completes. -/
inductive Shape where
  | none (i : Instr)
  | seq (i : List Byte → Instr)
  | packet (i : PktOperand → Instr)
  | packetAddress (i : PktOperand → Address → Instr)
  | packetBitAddress (i : PktOperand → Bool → Address → Instr)

/-- The operation table of R78: the operand shape of each listed OP code, nothing for the others (R75, U15). -/
def shapeOf (op : BitVec 6) : Option Shape :=
  match op.toNat with
  | 0x00 => some (.none .reset)
  | 0x01 => some (.seq .push)
  | 0x02 => some (.none .parse)
  | 0x03 => some (.packet .encode)
  | 0x04 => some (.seq .crc8)
  | 0x05 => some (.packet .classify)
  | 0x08 => some (.packet .radioRorg)
  | 0x09 => some (.packet .radioSender)
  | 0x0A => some (.packet .radioDest)
  | 0x0B => some (.packet .radioStatus)
  | 0x10 => some (.packet .uteBidir)
  | 0x11 => some (.packet .uteRespexp)
  | 0x12 => some (.packet .uteReqtype)
  | 0x13 => some (.packet .uteFlags)
  | 0x14 => some (.packet .uteTeachin)
  | 0x15 => some (.packet .uteDelete)
  | 0x16 => some (.packet .uteNchan)
  | 0x17 => some (.packet .uteManuf)
  | 0x18 => some (.packet .uteEeprorg)
  | 0x19 => some (.packet .uteFunc)
  | 0x1A => some (.packet .uteType)
  | 0x1B => some (.packet .uteCeep)
  | 0x20 => some (.packet .bs4Learn)
  | 0x21 => some (.packet .bs4Func)
  | 0x22 => some (.packet .bs4Type)
  | 0x23 => some (.packet .bs4Manuf)
  | 0x24 => some (.packet .bs4Ceep)
  | 0x28 => some (.packetAddress .uteResp)
  | 0x29 => some (.packetAddress .bs4Resp)
  | 0x2A => some (.packetBitAddress .respond)
  | _ => Option.none

/-- The end of a command: only zero bytes may follow the last operand. -/
def atEnd (i : Instr) (rest : List Byte) : Except DecodeError Instr :=
  if rest.all (· == 0) then .ok i else .error (.malformed .trailing)

/-- Reads the operands a shape asks for. -/
def decodeOperands : Shape → List Byte → Except DecodeError Instr
  | .none i, args => atEnd i args
  | .seq i, args =>
    match takeSeq args with
    | .ok (s, rest) => atEnd (i s) rest
    | .error e => .error e
  | .packet i, args =>
    match takePacket args with
    | .ok (p, rest) => atEnd (i p) rest
    | .error e => .error e
  | .packetAddress i, args =>
    match takePacket args with
    | .error e => .error e
    | .ok (p, more) =>
      match takeSeq more with
      | .ok (la, rest) => atEnd (i p la) rest
      | .error e => .error e
  | .packetBitAddress i, args =>
    match takePacket args with
    | .error e => .error e
    | .ok (p, more) =>
      match takeBit more with
      | .error e => .error e
      | .ok (en, more') =>
        match takeSeq more' with
        | .ok (la, rest) => atEnd (i p en la) rest
        | .error e => .error e

/-- The operation decoder: the OP code is tested before any operand (60_exceptions.md R207). -/
def decodeOp (op : BitVec 6) (args : List Byte) : Except DecodeError Instr :=
  match shapeOf op with
  | some shape => decodeOperands shape args
  | Option.none => .error (.illegalOp op)

/-- The table row of a complete frame: the VARIANT row of its packet where both checksums are right (R74), FRAME.ESP3
where one is not and no variant is given to it (R60; notes/assumptions/8.md). -/
def frameInstr (f : Frame) : Instr :=
  if checksumsRight f then
    match classifyPacket (framePacket f) with
    | .generic => .variantGeneric (framePacket f)
    | .radio => .variantRadio (framePacket f)
    | .uteTeachIn => .variantUteTeachIn (framePacket f)
    | .bs4TeachIn => .variantBs4TeachIn (framePacket f)
  else .frameEsp3 f

/-- Reads a frame from the bytes after its sync byte: the header alone tells its length (R61). -/
def decodeFrame : List Byte → Except DecodeError Instr
  | hi :: lo :: olen :: t :: hcrc :: body =>
    let d := dataLen hi lo
    match body.drop (d + olen.toNat) with
    | [] => .error (.malformed .cutFrame)
    | dcrc :: rest =>
      atEnd (frameInstr ⟨t, hcrc, body.take d, (body.drop d).take olen.toNat, dcrc⟩) rest
  | _ => .error (.malformed .cutFrame)

/-- The decoder: total on any bytes. -/
def decode : List Byte → Except DecodeError Instr
  | [] => .error (.malformed .empty)
  | b :: rest =>
    if b = Config.sync then decodeFrame rest
    else if b.extractLsb 7 6 = 0 then decodeOp (b.setWidth 6) rest
    else .error (.malformed (.firstByte b))

/-- A byte sequence operand as it travels. -/
def putSeq : List Byte → List Byte
  | [] => [0]
  | b :: bs => 1 :: b :: putSeq bs

/-- A packet operand as it travels. -/
def putPacket : PktOperand → List Byte
  | .pkt => [1]
  | .value p => 0 :: p.ptype :: (putSeq p.data ++ putSeq p.opt)

/-- A bit operand as it travels. -/
def putBit (b : Bool) : List Byte := if b then [1] else [0]

/-- The first byte of an instruction's command: its OP code (R78), or the sync byte of a frame row (R60). -/
def headByte : Instr → Byte
  | .reset => 0x00
  | .push _ => 0x01
  | .parse => 0x02
  | .encode _ => 0x03
  | .crc8 _ => 0x04
  | .classify _ => 0x05
  | .radioRorg _ => 0x08
  | .radioSender _ => 0x09
  | .radioDest _ => 0x0A
  | .radioStatus _ => 0x0B
  | .uteBidir _ => 0x10
  | .uteRespexp _ => 0x11
  | .uteReqtype _ => 0x12
  | .uteFlags _ => 0x13
  | .uteTeachin _ => 0x14
  | .uteDelete _ => 0x15
  | .uteNchan _ => 0x16
  | .uteManuf _ => 0x17
  | .uteEeprorg _ => 0x18
  | .uteFunc _ => 0x19
  | .uteType _ => 0x1A
  | .uteCeep _ => 0x1B
  | .bs4Learn _ => 0x20
  | .bs4Func _ => 0x21
  | .bs4Type _ => 0x22
  | .bs4Manuf _ => 0x23
  | .bs4Ceep _ => 0x24
  | .uteResp _ _ => 0x28
  | .bs4Resp _ _ => 0x29
  | .respond _ _ _ => 0x2A
  | .frameEsp3 _ => Config.sync
  | .variantGeneric _ => Config.sync
  | .variantUteTeachIn _ => Config.sync
  | .variantBs4TeachIn _ => Config.sync
  | .variantRadio _ => Config.sync

/-- The bytes after the first: the operands in the order R78 lists them, or the rest of the frame (R60). -/
def tailBytes : Instr → List Byte
  | .reset => []
  | .push s => putSeq s
  | .parse => []
  | .encode p => putPacket p
  | .crc8 s => putSeq s
  | .classify p => putPacket p
  | .radioRorg p => putPacket p
  | .radioSender p => putPacket p
  | .radioDest p => putPacket p
  | .radioStatus p => putPacket p
  | .uteBidir p => putPacket p
  | .uteRespexp p => putPacket p
  | .uteReqtype p => putPacket p
  | .uteFlags p => putPacket p
  | .uteTeachin p => putPacket p
  | .uteDelete p => putPacket p
  | .uteNchan p => putPacket p
  | .uteManuf p => putPacket p
  | .uteEeprorg p => putPacket p
  | .uteFunc p => putPacket p
  | .uteType p => putPacket p
  | .uteCeep p => putPacket p
  | .bs4Learn p => putPacket p
  | .bs4Func p => putPacket p
  | .bs4Type p => putPacket p
  | .bs4Manuf p => putPacket p
  | .bs4Ceep p => putPacket p
  | .uteResp p la => putPacket p ++ putSeq la
  | .bs4Resp p la => putPacket p ++ putSeq la
  | .respond p en la => putPacket p ++ putBit en ++ putSeq la
  | .frameEsp3 f => (frameBytes f).tail
  | .variantGeneric p => (frameBytes (frameOf p)).tail
  | .variantUteTeachIn p => (frameBytes (frameOf p)).tail
  | .variantBs4TeachIn p => (frameBytes (frameOf p)).tail
  | .variantRadio p => (frameBytes (frameOf p)).tail

/-- The encoder: the command of an instruction. -/
def encode (i : Instr) : List Byte := headByte i :: tailBytes i

/-- A table word as a command: its bytes, the first in bits 7 to 0, followed by operand bytes of zeros. Eight zeros are
more than any instruction with all-zero operands takes. -/
def tableBytes (nbits w : Nat) : List Byte :=
  (List.range ((nbits + 7) / 8)).map (fun k => BitVec.ofNat 8 ((w % 2 ^ nbits) >>> (8 * k))) ++ List.replicate 8 0

/-- The instruction the decoder reads from a word of spec/opcode_table.json. -/
def decodeTableWord (nbits w : Nat) : Option Instr :=
  match decode (tableBytes nbits w) with
  | .ok i => some i
  | .error _ => Option.none

end Sys2Proof
end

