-- ==== Sys2Proof/Machine/State.lean ====
section
/-! DEFINITION. The state of the codec block (10_state.md R20), its outcomes, and the state after reset. -/

namespace Sys2Proof.Machine

/-- The three parse statuses (10_state.md R22, 60_exceptions.md R200 to R203). -/
inductive Status where
  | ok
  | incomplete
  | crcMismatch
  deriving DecidableEq, Repr

/-- The information `FieldAbsent` carries (60_exceptions.md R204): the radio field or the telegram kind. -/
inductive AbsentField where
  | rorg
  | sender
  | dest
  | status
  | ute
  | bs4
  deriving DecidableEq, Repr

/-- The information `MalformedRequest` carries (R204): the test that failed (44_responder.md R171, R172). -/
inductive RequestTest where
  | ute
  | bs4
  | notAQuery
  | addr
  deriving DecidableEq, Repr

/-- The six operation faults of 60_exceptions.md R204, each with the information it carries. They are outcomes the
machine reports and goes on from (R205, R209), not stops. -/
inductive OpFault where
  /-- code 1, `PUSH`: the two lengths `len(RXBUF)` and `len(S)` -/
  | bufferFull (held offered : Nat)
  /-- code 2, `ENCODE`: the two lengths `len(data)` and `len(opt)` -/
  | invalidPacket (dataLen optLen : Nat)
  /-- code 3, the extractors: which field or telegram kind -/
  | fieldAbsent (which : AbsentField)
  /-- code 4, `UTE.RESP` and `BS4.RESP`: which test failed -/
  | malformedRequest (which : RequestTest)
  /-- code 5, any operation given the operand `PKT` while PKT_VALID = 0 -/
  | noPacket
  /-- code 6, the operation decoder: the unlisted OP code -/
  | illegalOp (code : BitVec 6)
  deriving DecidableEq, Repr

/-- The results of the operations (30_encoding.md R78's result column). A bit field keeps its width. -/
inductive Result where
  | done
  | status (st : Status)
  | frame (bytes : List Byte)
  | byte (b : Byte)
  | tag (t : Tag)
  | address (a : Address)
  | bit (b : BitVec 1)
  | bits2 (v : BitVec 2)
  | bits4 (v : BitVec 4)
  | bits6 (v : BitVec 6)
  | bits7 (v : BitVec 7)
  | bits11 (v : BitVec 11)
  | packet (p : Packet)
  | absent
  deriving DecidableEq, Repr

/-- What the host was told by the last operation: nothing yet, a result, or a fault (R200). Not state of the block: the
model's own field (00_scope.md R12; notes/assumptions/3.md). -/
inductive Reply where
  | idle
  | result (r : Result)
  | fault (f : OpFault)
  deriving DecidableEq, Repr

/-- How a step stops with a machine fault. No operation of the spec raises either: 20_memory.md R46 says that every
access is guarded, and an obligation says that no step answers one. -/
inductive Fault where
  /-- Raised by `readMem` (00_scope.md R12, MemRead): an access past the end of RXBUF. SAFE: the model stops. -/
  | readOutsideBuffer (addr count held : Nat)
  /-- Raised by `consumeBytes` (R12, Consume): more bytes than RXBUF holds. SAFE: the model stops. -/
  | consumeOutsideBuffer (count held : Nat)
  deriving DecidableEq, Repr

/-- How a step refuses. -/
inductive Refusal where
  /-- Raised by an arm of `exec` whose instruction has no meaning. No arm is such. SAFE. -/
  | notModelled (mnemonic : String)
  /-- Raised by `step`: the waiting command does not follow the model's own transfer format, so it is no operation the
  spec describes (an unlisted OP code is NOT this: it is the block's fault `illegalOp`). SAFE. -/
  | malformedCommand (why : Malformed)
  deriving DecidableEq, Repr

/-- RXBUF: the element at position i is the byte at index i (10_state.md R31). Equal buffers are equal lists, and an
index at or past the length holds no byte (notes/assumptions/9.md). -/
abbrev Memory := List Byte

/-- The seven registers of 10_state.md R20, then the model's own fields. -/
structure State where
  /-- RXBUF, oldest byte first (R21) -/
  rxbuf : Memory
  /-- STATUS (R22) -/
  status : Status
  /-- PKT_VALID (R23) -/
  pktValid : Bool
  /-- PKT_TAG (R23); unspecified while PKT_VALID = 0 -/
  pktTag : Tag
  /-- PKT_TYPE (R23); unspecified while PKT_VALID = 0 -/
  pktType : Byte
  /-- PKT_DATA (R23, R26); unspecified while PKT_VALID = 0 -/
  pktData : List Byte
  /-- PKT_OPT (R23, R26); unspecified while PKT_VALID = 0 -/
  pktOpt : List Byte
  /-- model's own: how many times the four result registers have become unspecified (notes/assumptions/4.md) -/
  freeCount : Nat
  /-- model's own: the last operation's outcome (notes/assumptions/3.md) -/
  reply : Reply
  /-- model's own: the host's operations not yet executed, oldest first (notes/assumptions/1.md) -/
  commands : List (List Byte)
  /-- the parameters fixed when the block is built (00_scope.md R5; notes/assumptions/6.md) -/
  params : Params
  deriving DecidableEq, Repr

/-- The block right after reset (70_reset_and_hazards.md R230, R231): RXBUF empty, STATUS = INCOMPLETE, PKT_VALID = 0, the
other four registers unspecified (the free values at 0). The model's own fields: no command waits, no outcome has been
reported, the parameters are the spec's defaults. -/
def State.reset : State where
  rxbuf := []
  status := .incomplete
  pktValid := false
  pktTag := Config.freeTag 0
  pktType := Config.freeType 0
  pktData := (Config.freeData 0).take Config.maxDataLen
  pktOpt := (Config.freeOpt 0).take Config.maxOptLen
  freeCount := 1
  reply := .idle
  commands := []
  params := defaultParams

end Sys2Proof.Machine
end

