-- ==== Sys2Proof/Machine/Flags.lean ====
section
/-! DEFINITION. The two flags STATUS and PKT_VALID with the four result registers (10_state.md R22, R23, R28): they are
written together, by `PARSE` and `RESET` only. And the numeric codes the spec gives to statuses, tags and faults. -/

namespace Sys2Proof.Machine

/-- The numeric code of a status (10_state.md R22, 60_exceptions.md R203); code 2 is never produced. -/
def statusCode : Status → BitVec 2
  | .ok => 0
  | .incomplete => 1
  | .crcMismatch => 3

/-- The numeric code of a variant tag (10_state.md R20). -/
def tagCode : Tag → BitVec 2
  | .generic => 0
  | .radio => 1
  | .uteTeachIn => 2
  | .bs4TeachIn => 3

/-- The numeric code of an operation fault (60_exceptions.md R204). -/
def faultCode : OpFault → Nat
  | .bufferFull _ _ => 1
  | .invalidPacket _ _ => 2
  | .fieldAbsent _ => 3
  | .malformedRequest _ => 4
  | .noPacket => 5
  | .illegalOp _ => 6

/-- STATUS = OK and PKT_VALID = 1 together with the packet and its variant (R23, 40_crc_framing.md R103 case D). -/
def setPacket (p : Packet) (s : State) : State :=
  { s with
    status := .ok
    pktValid := true
    pktTag := classifyPacket p
    pktType := p.ptype
    pktData := p.data
    pktOpt := p.opt }

/-- STATUS other than OK and PKT_VALID = 0; the four other result registers become unspecified (R23, U10): each takes the
next free value, within the register's length bound. -/
def setNoPacket (st : Status) (s : State) : State :=
  { s with
    status := st
    pktValid := false
    pktTag := Config.freeTag s.freeCount
    pktType := Config.freeType s.freeCount
    pktData := (Config.freeData s.freeCount).take Config.maxDataLen
    pktOpt := (Config.freeOpt s.freeCount).take Config.maxOptLen
    freeCount := s.freeCount + 1 }

end Sys2Proof.Machine
end

