-- ==== Sys2Proof/Machine/Ops.lean ====
section
/-! DEFINITION. The named operations over RXBUF and the reply port: MemRead, Append, Consume (00_scope.md R12), raising a
fault (60_exceptions.md R204, R205) and handing a result to the host. -/

namespace Sys2Proof.Machine

/-- `result <- v` (R12): the result is handed to the host; no register of the block changes. -/
def answer (r : Result) (s : State) : State := { s with reply := .result r }

/-- `raise F(info)` (R12; 60_exceptions.md R205, R208): the one way an operation faults. Nothing is saved, nothing is
redirected and no register changes; the host learns of the fault from the operation's outcome and may issue any
operation next (R209: there is no return operation). -/
def raise (f : OpFault) (s : State) : State := { s with reply := .fault f }

/-- The byte at index `a` of a buffer, where there is one (10_state.md R31). -/
def byteAt (m : Memory) (a : Nat) : Option Byte := m[a]?

/-- `MemRead(a, n)` = `RXBUF[a..a+n)` (00_scope.md R12, 20_memory.md R46), defined when `a + n <= len(RXBUF)`. -/
def readMem (m : Memory) (a n : Nat) : Except Fault (List Byte) :=
  if a + n ≤ m.length then .ok ((m.drop a).take n)
  else .error (.readOutsideBuffer a n m.length)

/-- `MemRead(a, 1)` as a byte. -/
def readByte (m : Memory) (a : Nat) : Except Fault Byte :=
  match byteAt m a with
  | some b => .ok b
  | none => .error (.readOutsideBuffer a 1 m.length)

/-- `Append(S)`: `RXBUF <- RXBUF ++ S` (R12). -/
def appendBytes (bs : List Byte) (s : State) : State := { s with rxbuf := s.rxbuf ++ bs }

/-- `Consume(k)`: `RXBUF <- RXBUF[k..]` (R12), defined when `k <= len(RXBUF)`. -/
def consumeBytes (k : Nat) (s : State) : Except Fault State :=
  if k ≤ s.rxbuf.length then .ok { s with rxbuf := s.rxbuf.drop k }
  else .error (.consumeOutsideBuffer k s.rxbuf.length)

/-- RXBUF as (index, byte) pairs. -/
def memoryCells (m : Memory) : List Host.Cell := m.zipIdx.map (fun c => (c.2, c.1))

/-- The buffer holds at most RXBUF_CAP bytes (10_state.md R20, R33). The list form is canonical by itself: the indices
of `memoryCells` are 0, 1, 2, ... and no entry stands for a missing byte. -/
def Memory.wf (cap : Option Nat) (m : Memory) : Bool := fitsCap cap m.length

/-- The outcome of an operation whose buffer accesses may have been out of range. -/
def settle : Except Fault State → Host.Outcome State Fault Refusal
  | .ok s => .next s
  | .error e => .fault e

end Sys2Proof.Machine
end

