-- ==== Sys2Proof/Machine/Operands.lean ====
section
/-! DEFINITION. Operand forms: a packet operand (41_packet_model.md R119) and the data bytes of a packet. -/

namespace Sys2Proof.Machine

/-- The packet in the result registers. -/
def resultPacket (s : State) : Packet := ⟨s.pktType, s.pktData, s.pktOpt⟩

/-- The packet an operand names (R119): the given value, or the result registers, which fault with `NoPacket` while
PKT_VALID = 0 (10_state.md R23). -/
def packetOf (o : PktOperand) (s : State) : Except OpFault Packet :=
  match o with
  | .value p => .ok p
  | .pkt => if s.pktValid then .ok (resultPacket s) else .error .noPacket

/-- A pure operation of a packet operand (R119): `NoPacket` before any test of the packet (60_exceptions.md R207), then
the operation's own fault, or its result; no register is written. -/
def onPacket (o : PktOperand) (f : Packet → Except OpFault Result) (s : State) : Host.Outcome State Fault Refusal :=
  match packetOf o s with
  | .error e => .next (raise e s)
  | .ok p =>
    match f p with
    | .error e => .next (raise e s)
    | .ok r => .next (answer r s)

/-- Data byte `i` of a packet; where there is no such byte, `FieldAbsent`, never a default (R119, D16). -/
def dataByte (p : Packet) (i : Nat) (which : AbsentField) : Except OpFault Byte :=
  match p.data[i]? with
  | some b => .ok b
  | none => .error (.fieldAbsent which)

/-- Bytes `i` to `i + n - 1` of a byte sequence (00_scope.md R9, `B[i..i+n)`). -/
def sliceBytes (bs : List Byte) (i n : Nat) : List Byte := (bs.drop i).take n

end Sys2Proof.Machine
end

