-- ==== Sys2Proof/Machine/Bs4.lean ====
section
/-! DEFINITION. The BS4 (4BS) teach-in field extractors (43_bs4_fields.md R160 to R165). -/

namespace Sys2Proof.Machine

/-- `require_bs4(p)` and then data byte `i` (R160); the discriminator bit is not looked at. -/
def bs4Byte (p : Packet) (i : Nat) : Except OpFault Byte :=
  if isBs4Telegram p then dataByte p i .bs4 else .error (.fieldAbsent .bs4)

/-- `BS4.LEARN`: `1 - data[4][3]` (R161). -/
def bs4LearnOf (p : Packet) : Except OpFault Result := do
  let db0 ← bs4Byte p 4
  return .bit (1 - db0.extractLsb 3 3)

/-- `BS4.FUNC`: `data[1][7:2]` (R162). -/
def bs4FuncOf (p : Packet) : Except OpFault Result := do
  let b1 ← bs4Byte p 1
  return .bits6 (b1.extractLsb 7 2)

/-- `BS4.TYPE`: `data[1][1:0] ++ data[2][7:3]` (R163). -/
def bs4TypeOf (p : Packet) : Except OpFault Result := do
  let b1 ← bs4Byte p 1
  let b2 ← bs4Byte p 2
  return .bits7 (b1.extractLsb 1 0 ++ b2.extractLsb 7 3)

/-- `BS4.MANUF`: `data[2][2:0] ++ data[3][7:0]` (R164, the earlier byte is the more significant). -/
def bs4ManufOf (p : Packet) : Except OpFault Result := do
  let b2 ← bs4Byte p 2
  let b3 ← bs4Byte p 3
  return .bits11 (b2.extractLsb 2 0 ++ b3)

/-- `BS4.CEEP`: `data[4][7]`, LRN_TYPE (R165). -/
def bs4CeepOf (p : Packet) : Except OpFault Result := do
  let db0 ← bs4Byte p 4
  return .bit (db0.extractLsb 7 7)

/-- `BS4.LEARN p` (R161). -/
def execBs4Learn (o : PktOperand) (s : State) : Host.Outcome State Fault Refusal := onPacket o bs4LearnOf s

/-- `BS4.FUNC p` (R162). -/
def execBs4Func (o : PktOperand) (s : State) : Host.Outcome State Fault Refusal := onPacket o bs4FuncOf s

/-- `BS4.TYPE p` (R163). -/
def execBs4Type (o : PktOperand) (s : State) : Host.Outcome State Fault Refusal := onPacket o bs4TypeOf s

/-- `BS4.MANUF p` (R164). -/
def execBs4Manuf (o : PktOperand) (s : State) : Host.Outcome State Fault Refusal := onPacket o bs4ManufOf s

/-- `BS4.CEEP p` (R165). -/
def execBs4Ceep (o : PktOperand) (s : State) : Host.Outcome State Fault Refusal := onPacket o bs4CeepOf s

end Sys2Proof.Machine
end

