-- ==== Sys2Proof/Machine/Framing.lean ====
section
/-! DEFINITION. What `RESET`, `PUSH` and `PARSE` do to the state (70_reset_and_hazards.md R230, 40_crc_framing.md R102,
R103), and the pseudo-operation DECODE (30_encoding.md R79). -/

namespace Sys2Proof.Machine

/-- `RESET` (R230): the buffer is emptied, STATUS = INCOMPLETE, PKT_VALID = 0, the other result registers become
unspecified. -/
def resetBlock (s : State) : State :=
  answer .done (setNoPacket .incomplete { s with rxbuf := [] })

/-- `PUSH S` (R102): append all the bytes, or fault with `BufferFull` and take none. -/
def pushBytes (bs : List Byte) (s : State) : State :=
  if fitsCap s.params.rxbufCap (s.rxbuf.length + bs.length) then answer .done (appendBytes bs s)
  else raise (.bufferFull s.rxbuf.length bs.length) s

/-- The five cases of R103. -/
inductive ParseCase where
  /-- case A: no sync byte anywhere -/
  | noSync
  /-- case B: sync byte found, header not complete -/
  | shortHeader
  /-- case C: header complete, frame not complete -/
  | shortFrame
  /-- case D: both checksums right; the frame ends at `next`, the index after its data CRC8 -/
  | good (p : Packet) (next : Nat)
  /-- case E: a checksum is wrong; the sync byte stands at `sync` and the declared frame ends at `next` -/
  | bad (sync next : Nat)
  deriving DecidableEq, Repr

/-- `first_index(B, 0x55)` (00_scope.md R12). -/
def syncIndex (m : Memory) : Option Nat := m.findIdx? (· == Config.sync)

/-- The frame at sync index `k` once its length is known to be present: both checksums are computed (R103, corner case
2) and decide between cases D and E. -/
def parseFrame (m : Memory) (k dlen olen : Nat) : Except Fault ParseCase := do
  let t ← readByte m (k + 4)
  let header ← readMem m (k + 1) 4
  let hcrc ← readByte m (k + 5)
  let body ← readMem m (k + 6) (dlen + olen)
  let dcrc ← readByte m (k + frameLen dlen olen - 1)
  let data ← readMem m (k + 6) dlen
  let opt ← readMem m (k + 6 + dlen) olen
  if crc8 header = hcrc ∧ crc8 body = dcrc then
    return .good ⟨t, data, opt⟩ (k + frameLen dlen olen)
  else
    return .bad k (k + frameLen dlen olen)

/-- Which case of R103 a buffer is in; the tests in the order of 60_exceptions.md R207. -/
def parseCase (m : Memory) : Except Fault ParseCase :=
  match syncIndex m with
  | none => .ok .noSync
  | some k =>
    if m.length - k < Config.hdrLen then .ok .shortHeader
    else do
      let hi ← readByte m (k + 1)
      let lo ← readByte m (k + 2)
      let o ← readByte m (k + 3)
      if m.length - k < frameLen (dataLen hi lo) o.toNat then .ok .shortFrame
      else parseFrame m k (dataLen hi lo) o.toNat

/-- How many bytes go on a checksum mismatch (R103 case E, P_CRC_DISCARD). -/
def discardCount (d : CrcDiscard) (sync next : Nat) : Nat :=
  match d with
  | .wholeFrame => next
  | .syncOnly => sync + 1

/-- What each case of R103 does to the registers. -/
def applyParse (c : ParseCase) (s : State) : Except Fault State :=
  match c with
  | .noSync => do
    let s' ← consumeBytes s.rxbuf.length s
    return setNoPacket .incomplete s'
  | .shortHeader => .ok (setNoPacket .incomplete s)
  | .shortFrame => .ok (setNoPacket .incomplete s)
  | .good p next => do
    let s' ← consumeBytes next s
    return setPacket p s'
  | .bad sync next => do
    let s' ← consumeBytes (discardCount s.params.crcDiscard sync next) s
    return setNoPacket .crcMismatch s'

/-- `PARSE` (R103): one frame at most; the status is also the operation's result. -/
def parseBuffer (s : State) : Except Fault State := do
  let c ← parseCase s.rxbuf
  let s' ← applyParse c s
  return answer (.status s'.status) s'

/-- The test of `ENCODE` and its result (40_crc_framing.md R104). -/
def encodePacket (p : Packet) : Except OpFault (List Byte) :=
  if lengthsFit p then .ok (frameBytes (frameOf p))
  else .error (.invalidPacket p.data.length p.opt.length)

/-- `DECODE F` is `RESET`, `PUSH F`, `PARSE` (30_encoding.md R79); its outcome is the `PARSE`'s. -/
def decodeBytes (bs : List Byte) (s : State) : Except Fault State :=
  parseBuffer (pushBytes bs (resetBlock s))

/-- `DECODE (ENCODE p)` (40_crc_framing.md R105); a packet no frame can carry is `ENCODE`'s fault. -/
def decodePacket (p : Packet) (s : State) : Except Fault State :=
  match encodePacket p with
  | .ok bs => decodeBytes bs s
  | .error e => .ok (raise e s)

end Sys2Proof.Machine
end

