-- ==== Sys2Proof/Machine/Codec.lean ====
section
/-! DEFINITION. The Frame Codec family and RESET (40_crc_framing.md R100 to R104, 70_reset_and_hazards.md R230). -/

namespace Sys2Proof.Machine

/-- `RESET` (R230). -/
def execReset (s : State) : Host.Outcome State Fault Refusal := .next (resetBlock s)

/-- `PUSH S` (R102). -/
def execPush (bs : List Byte) (s : State) : Host.Outcome State Fault Refusal := .next (pushBytes bs s)

/-- `PARSE` (R103). -/
def execParse (s : State) : Host.Outcome State Fault Refusal := settle (parseBuffer s)

/-- `ENCODE p` (R104). -/
def execEncode (o : PktOperand) (s : State) : Host.Outcome State Fault Refusal :=
  onPacket o (fun p => (encodePacket p).map .frame) s

/-- `CRC8 S` (R100). -/
def execCrc8 (bs : List Byte) (s : State) : Host.Outcome State Fault Refusal := .next (answer (.byte (crc8 bs)) s)

end Sys2Proof.Machine
end

