-- ==== Sys2Proof/Machine/Radio.lean ====
section
/-! DEFINITION. CLASSIFY and the radio-packet fields (41_packet_model.md R120 to R124). -/

namespace Sys2Proof.Machine

/-- The four data bytes before the status byte, `data[n-5 .. n-1)` (30_encoding.md R63). -/
def senderBytes (p : Packet) : Address := sliceBytes p.data (p.data.length - 5) 4

/-- `destination` (R123): `opt[1..5)` where it exists, else the broadcast address. -/
def destBytes (p : Packet) : Address :=
  if 5 ≤ p.opt.length then sliceBytes p.opt 1 4 else Config.broadcast

/-- `RADIO.RORG` of a packet (R121). -/
def radioRorgOf (p : Packet) : Except OpFault Result :=
  if p.ptype = Config.ptRadioErp1 then (dataByte p 0 .rorg).map .byte else .error (.fieldAbsent .rorg)

/-- `RADIO.SENDER` of a packet (R122). -/
def radioSenderOf (p : Packet) : Except OpFault Result :=
  if isRadioTelegram p then .ok (.address (senderBytes p)) else .error (.fieldAbsent .sender)

/-- `RADIO.DEST` of a packet (R123). -/
def radioDestOf (p : Packet) : Except OpFault Result :=
  if p.ptype = Config.ptRadioErp1 then .ok (.address (destBytes p)) else .error (.fieldAbsent .dest)

/-- `RADIO.STATUS` of a packet (R124). -/
def radioStatusOf (p : Packet) : Except OpFault Result :=
  if isRadioTelegram p then (dataByte p (p.data.length - 1) .status).map .byte else .error (.fieldAbsent .status)

/-- `CLASSIFY p` (R120). -/
def execClassify (o : PktOperand) (s : State) : Host.Outcome State Fault Refusal :=
  onPacket o (fun p => .ok (.tag (classifyPacket p))) s

/-- `RADIO.RORG p` (R121). -/
def execRadioRorg (o : PktOperand) (s : State) : Host.Outcome State Fault Refusal := onPacket o radioRorgOf s

/-- `RADIO.SENDER p` (R122). -/
def execRadioSender (o : PktOperand) (s : State) : Host.Outcome State Fault Refusal := onPacket o radioSenderOf s

/-- `RADIO.DEST p` (R123). -/
def execRadioDest (o : PktOperand) (s : State) : Host.Outcome State Fault Refusal := onPacket o radioDestOf s

/-- `RADIO.STATUS p` (R124). -/
def execRadioStatus (o : PktOperand) (s : State) : Host.Outcome State Fault Refusal := onPacket o radioStatusOf s

end Sys2Proof.Machine
end

