-- ==== Sys2Proof/Machine/Responder.lean ====
section
/-! DEFINITION. The Teach-In Responder (44_responder.md R170 to R174). -/

namespace Sys2Proof.Machine

/-- `resp_opt(p)` (R170): subtelegram count, the request's sender as destination, transmit power, security level. -/
def respOpt (p : Packet) : List Byte :=
  [Config.respSubtel] ++ senderBytes p ++ [Config.respDbm, Config.respSec]

/-- The packet `UTE.RESP` builds (R171): rorg and data bytes 2 to 7 echoed, DB6 = UTE_RESP_DB6, sender = `la`. -/
def buildUteResp (p : Packet) (la : Address) : Packet where
  ptype := Config.ptRadioErp1
  data := sliceBytes p.data 0 1 ++ [Config.uteRespDb6] ++ sliceBytes p.data 2 6 ++ la ++ [Config.respStatus]
  opt := respOpt p

/-- The packet `BS4.RESP` builds (R172): rorg and data bytes 1 to 3 echoed, data byte 4 = BS4_RESP_DB0, sender = `la`. -/
def buildBs4Resp (p : Packet) (la : Address) : Packet where
  ptype := Config.ptRadioErp1
  data := sliceBytes p.data 0 1 ++ sliceBytes p.data 1 3 ++ [Config.bs4RespDb0] ++ la ++ [Config.respStatus]
  opt := respOpt p

/-- `UTE.RESP` of a packet (R171): the tests in their order, then the response. -/
def uteRespOf (la : Address) (p : Packet) : Except OpFault Result :=
  if isUteTelegram p = false then .error (.malformedRequest .ute)
  else if la.length ≠ Config.addressLen then .error (.malformedRequest .addr)
  else .ok (.packet (buildUteResp p la))

/-- `BS4.RESP` of a packet (R172): the tests in their order, then the response. -/
def bs4RespOf (la : Address) (p : Packet) : Except OpFault Result :=
  if isBs4Telegram p = false then .error (.malformedRequest .bs4)
  else if queryBit p.data ≠ some false then .error (.malformedRequest .notAQuery)
  else if la.length ≠ Config.addressLen then .error (.malformedRequest .addr)
  else .ok (.packet (buildBs4Resp p la))

/-- `RESPOND` of a packet (R174): the gate; it never faults. -/
def respondOf (en : Bool) (la : Address) (p : Packet) : Result :=
  if en = false then .absent
  else if classifyPacket p = .uteTeachIn ∧ p.data.length = Config.uteDataLen ∧ la.length = Config.addressLen then
    .packet (buildUteResp p la)
  else if classifyPacket p = .bs4TeachIn ∧ p.data.length = Config.bs4DataLen ∧ la.length = Config.addressLen then
    .packet (buildBs4Resp p la)
  else .absent

/-- `UTE.RESP p, la` (R171). -/
def execUteResp (o : PktOperand) (la : Address) (s : State) : Host.Outcome State Fault Refusal :=
  onPacket o (uteRespOf la) s

/-- `BS4.RESP p, la` (R172). -/
def execBs4Resp (o : PktOperand) (la : Address) (s : State) : Host.Outcome State Fault Refusal :=
  onPacket o (bs4RespOf la) s

/-- `RESPOND p, en, la` (R174). -/
def execRespond (o : PktOperand) (en : Bool) (la : Address) (s : State) : Host.Outcome State Fault Refusal :=
  onPacket o (fun p => .ok (respondOf en la p)) s

end Sys2Proof.Machine
end

