-- ==== Sys2Proof/Machine/Ute.lean ====
section
/-! DEFINITION. The UTE teach-in field extractors (42_ute_fields.md R140 to R153). -/

namespace Sys2Proof.Machine

/-- `require_ute(p)` and then data byte `i` (R140). -/
def uteByte (p : Packet) (i : Nat) : Except OpFault Byte :=
  if isUteTelegram p then dataByte p i .ute else .error (.fieldAbsent .ute)

/-- `UTE.BIDIR`: `data[1][7]` (R141). -/
def uteBidirOf (p : Packet) : Except OpFault Result := do
  let db6 ← uteByte p 1
  return .bit (db6.extractLsb 7 7)

/-- `UTE.RESPEXP`: `1 - data[1][6]` (R142). -/
def uteRespexpOf (p : Packet) : Except OpFault Result := do
  let db6 ← uteByte p 1
  return .bit (1 - db6.extractLsb 6 6)

/-- `UTE.REQTYPE`: `data[1][5:4]` (R143). -/
def uteReqtypeOf (p : Packet) : Except OpFault Result := do
  let db6 ← uteByte p 1
  return .bits2 (db6.extractLsb 5 4)

/-- `UTE.FLAGS`: `data[1][3:0]` (R144). -/
def uteFlagsOf (p : Packet) : Except OpFault Result := do
  let db6 ← uteByte p 1
  return .bits4 (db6.extractLsb 3 0)

/-- `UTE.TEACHIN`: the first half of P_UTE_TEACHIN_DECODE (R145, R146). -/
def uteTeachinOf (P : Params) (p : Packet) : Except OpFault Result := do
  let db6 ← uteByte p 1
  return .bit (teachInDecode P (db6.extractLsb 5 4) (db6.extractLsb 3 0)).1

/-- `UTE.DELETE`: the second half of P_UTE_TEACHIN_DECODE (R145, R147). -/
def uteDeleteOf (P : Params) (p : Packet) : Except OpFault Result := do
  let db6 ← uteByte p 1
  return .bit (teachInDecode P (db6.extractLsb 5 4) (db6.extractLsb 3 0)).2

/-- `UTE.NCHAN`: `data[2]` (R148). -/
def uteNchanOf (p : Packet) : Except OpFault Result := do
  let b ← uteByte p 2
  return .byte b

/-- `UTE.MANUF`: `data[4][2:0] ++ data[3][7:0]` (R149, 30_encoding.md R70: the later byte is the more significant). -/
def uteManufOf (p : Packet) : Except OpFault Result := do
  let low ← uteByte p 3
  let high ← uteByte p 4
  return .bits11 (high.extractLsb 2 0 ++ low)

/-- `UTE.EEPRORG`: `data[7]` (R150). -/
def uteEeprorgOf (p : Packet) : Except OpFault Result := do
  let b ← uteByte p 7
  return .byte b

/-- `UTE.FUNC`: `data[6]` (R151). -/
def uteFuncOf (p : Packet) : Except OpFault Result := do
  let b ← uteByte p 6
  return .byte b

/-- `UTE.TYPE`: `data[5]` (R152). -/
def uteTypeOf (p : Packet) : Except OpFault Result := do
  let b ← uteByte p 5
  return .byte b

/-- `UTE.CEEP`: constant 1 on a UTE telegram (R153). -/
def uteCeepOf (p : Packet) : Except OpFault Result :=
  if isUteTelegram p then .ok (.bit 1) else .error (.fieldAbsent .ute)

/-- `UTE.BIDIR p` (R141). -/
def execUteBidir (o : PktOperand) (s : State) : Host.Outcome State Fault Refusal := onPacket o uteBidirOf s

/-- `UTE.RESPEXP p` (R142). -/
def execUteRespexp (o : PktOperand) (s : State) : Host.Outcome State Fault Refusal := onPacket o uteRespexpOf s

/-- `UTE.REQTYPE p` (R143). -/
def execUteReqtype (o : PktOperand) (s : State) : Host.Outcome State Fault Refusal := onPacket o uteReqtypeOf s

/-- `UTE.FLAGS p` (R144). -/
def execUteFlags (o : PktOperand) (s : State) : Host.Outcome State Fault Refusal := onPacket o uteFlagsOf s

/-- `UTE.TEACHIN p` (R146). -/
def execUteTeachin (o : PktOperand) (s : State) : Host.Outcome State Fault Refusal := onPacket o (uteTeachinOf s.params) s

/-- `UTE.DELETE p` (R147). -/
def execUteDelete (o : PktOperand) (s : State) : Host.Outcome State Fault Refusal := onPacket o (uteDeleteOf s.params) s

/-- `UTE.NCHAN p` (R148). -/
def execUteNchan (o : PktOperand) (s : State) : Host.Outcome State Fault Refusal := onPacket o uteNchanOf s

/-- `UTE.MANUF p` (R149). -/
def execUteManuf (o : PktOperand) (s : State) : Host.Outcome State Fault Refusal := onPacket o uteManufOf s

/-- `UTE.EEPRORG p` (R150). -/
def execUteEeprorg (o : PktOperand) (s : State) : Host.Outcome State Fault Refusal := onPacket o uteEeprorgOf s

/-- `UTE.FUNC p` (R151). -/
def execUteFunc (o : PktOperand) (s : State) : Host.Outcome State Fault Refusal := onPacket o uteFuncOf s

/-- `UTE.TYPE p` (R152). -/
def execUteType (o : PktOperand) (s : State) : Host.Outcome State Fault Refusal := onPacket o uteTypeOf s

/-- `UTE.CEEP p` (R153). -/
def execUteCeep (o : PktOperand) (s : State) : Host.Outcome State Fault Refusal := onPacket o uteCeepOf s

end Sys2Proof.Machine
end

