-- ==== Sys2Proof/Machine/Wire.lean ====
section
/-! DEFINITION. The frame rows of the opcode table (30_encoding.md R60, R74): a frame arriving on a fresh buffer, which
is the spec's pseudo-operation DECODE of that frame (R79; notes/assumptions/8.md). -/

namespace Sys2Proof.Machine

/-- FRAME.ESP3: `DECODE` of the frame's bytes, checksums as they stand (R60, R79). -/
def execFrameEsp3 (f : Frame) (s : State) : Host.Outcome State Fault Refusal := settle (decodeBytes (frameBytes f) s)

/-- VARIANT.GENERIC: `DECODE` of the packet's frame (R74 (1), R79). -/
def execVariantGeneric (p : Packet) (s : State) : Host.Outcome State Fault Refusal := settle (decodePacket p s)

/-- VARIANT.UTE_TEACH_IN: `DECODE` of the packet's frame (R74 (2), R79). -/
def execVariantUteTeachIn (p : Packet) (s : State) : Host.Outcome State Fault Refusal := settle (decodePacket p s)

/-- VARIANT.BS4_TEACH_IN: `DECODE` of the packet's frame (R74 (3), R79). -/
def execVariantBs4TeachIn (p : Packet) (s : State) : Host.Outcome State Fault Refusal := settle (decodePacket p s)

/-- VARIANT.RADIO: `DECODE` of the packet's frame (R74 (4), R79). -/
def execVariantRadio (p : Packet) (s : State) : Host.Outcome State Fault Refusal := settle (decodePacket p s)

end Sys2Proof.Machine
end

