-- ==== Sys2Proof/Machine/Dispatch.lean ====
section
/-! DEFINITION. The dispatch: one arm per constructor of `Instr`, each one direct call of its meaning. -/

namespace Sys2Proof.Machine

def exec (i : Instr) (s : State) : Host.Outcome State Fault Refusal :=
  match i with
  | .reset => Sys2Proof.Machine.execReset s
  | .push bs => Sys2Proof.Machine.execPush bs s
  | .parse => Sys2Proof.Machine.execParse s
  | .encode p => Sys2Proof.Machine.execEncode p s
  | .crc8 bs => Sys2Proof.Machine.execCrc8 bs s
  | .classify p => Sys2Proof.Machine.execClassify p s
  | .radioRorg p => Sys2Proof.Machine.execRadioRorg p s
  | .radioSender p => Sys2Proof.Machine.execRadioSender p s
  | .radioDest p => Sys2Proof.Machine.execRadioDest p s
  | .radioStatus p => Sys2Proof.Machine.execRadioStatus p s
  | .uteBidir p => Sys2Proof.Machine.execUteBidir p s
  | .uteRespexp p => Sys2Proof.Machine.execUteRespexp p s
  | .uteReqtype p => Sys2Proof.Machine.execUteReqtype p s
  | .uteFlags p => Sys2Proof.Machine.execUteFlags p s
  | .uteTeachin p => Sys2Proof.Machine.execUteTeachin p s
  | .uteDelete p => Sys2Proof.Machine.execUteDelete p s
  | .uteNchan p => Sys2Proof.Machine.execUteNchan p s
  | .uteManuf p => Sys2Proof.Machine.execUteManuf p s
  | .uteEeprorg p => Sys2Proof.Machine.execUteEeprorg p s
  | .uteFunc p => Sys2Proof.Machine.execUteFunc p s
  | .uteType p => Sys2Proof.Machine.execUteType p s
  | .uteCeep p => Sys2Proof.Machine.execUteCeep p s
  | .bs4Learn p => Sys2Proof.Machine.execBs4Learn p s
  | .bs4Func p => Sys2Proof.Machine.execBs4Func p s
  | .bs4Type p => Sys2Proof.Machine.execBs4Type p s
  | .bs4Manuf p => Sys2Proof.Machine.execBs4Manuf p s
  | .bs4Ceep p => Sys2Proof.Machine.execBs4Ceep p s
  | .uteResp p la => Sys2Proof.Machine.execUteResp p la s
  | .bs4Resp p la => Sys2Proof.Machine.execBs4Resp p la s
  | .respond p en la => Sys2Proof.Machine.execRespond p en la s
  | .frameEsp3 f => Sys2Proof.Machine.execFrameEsp3 f s
  | .variantGeneric p => Sys2Proof.Machine.execVariantGeneric p s
  | .variantUteTeachIn p => Sys2Proof.Machine.execVariantUteTeachIn p s
  | .variantBs4TeachIn p => Sys2Proof.Machine.execVariantBs4TeachIn p s
  | .variantRadio p => Sys2Proof.Machine.execVariantRadio p s

end Sys2Proof.Machine
end

