-- ==== Sys2Proof/Machine/Step.lean ====
section
/-! DEFINITION. One step of the machine: the next operation the host has issued. -/

namespace Sys2Proof.Machine

/-- One step. With no command waiting the block is idle and keeps all its state (60_exceptions.md R221). Otherwise the
oldest command leaves the queue and is executed: its instruction; the fault `IllegalOp` for an unlisted OP code
(30_encoding.md R75, 60_exceptions.md R204), after which the machine goes on; a refusal for bytes that are no command of
the model's own format (notes/assumptions/11.md). -/
def step (s : State) : Host.Outcome State Fault Refusal :=
  match s.commands with
  | [] => .next s
  | c :: waiting =>
    match decode c with
    | .ok i => exec i { s with commands := waiting }
    | .error (.illegalOp code) => .next (raise (.illegalOp code) { s with commands := waiting })
    | .error (.malformed why) => .refused (.malformedCommand why)

/-- `s` with a word of spec/opcode_table.json, zero operand bytes after it, as the command `step` takes next. -/
def State.withFetchWord (s : State) (nbits w : Nat) : State :=
  { s with commands := tableBytes nbits w :: s.commands }

end Sys2Proof.Machine
end

