-- ==== Sys2Proof/Machine/Pseudo.lean ====
section
/-! DEFINITION. The pseudo-operations of 30_encoding.md R79 and runs of `PUSH` and `PARSE` (20_memory.md R51,
40_crc_framing.md R107), each a sequence of real operations. -/

namespace Sys2Proof.Machine

/-- What one `PARSE` reported to the host. -/
inductive Report where
  | incomplete
  | crcMismatch
  | packet (p : Packet) (tag : Tag)
  deriving DecidableEq, Repr

/-- What the registers report after a `PARSE` (10_state.md R23). -/
def reportOf (s : State) : Report :=
  match s.status with
  | .ok => .packet (resultPacket s) s.pktTag
  | .incomplete => .incomplete
  | .crcMismatch => .crcMismatch

/-- `DRAIN` (R79) with a bound on the number of `PARSE` operations: repeat `PARSE` until it returns INCOMPLETE; the
result is the list of the other reports in order, and the state after the last `PARSE`. `none` where an operation does
not answer a next state or the bound is reached first. -/
def drainWithin : Nat → State → Option (List Report × State)
  | 0, _ => none
  | n + 1, s =>
    match exec .parse s with
    | .next t =>
      match reportOf t with
      | .incomplete => some ([], t)
      | r => (drainWithin n t).map (fun x => (r :: x.1, x.2))
    | _ => none

/-- `DRAIN` (R79): every non-INCOMPLETE `PARSE` consumes at least one byte, so one more `PARSE` than there are bytes is
enough. -/
def drain (s : State) : Option (List Report × State) := drainWithin (s.rxbuf.length + 1) s

/-- `FEED S` is `PUSH S` then `DRAIN` (R79). -/
def feed (bs : List Byte) (s : State) : Option (List Report × State) :=
  match exec (.push bs) s with
  | .next t => drain t
  | _ => none

/-- A host action on the receive side. -/
inductive RxAction where
  | push (bs : List Byte)
  | parse
  deriving DecidableEq, Repr

/-- The bytes a run of actions pushes, in order. -/
def pushedBytes : List RxAction → List Byte
  | [] => []
  | .push bs :: rest => bs ++ pushedBytes rest
  | .parse :: rest => pushedBytes rest

/-- A run of actions: the report of each `PARSE` in order, and the last state. -/
def runActions : List RxAction → State → Option (List Report × State)
  | [], s => some ([], s)
  | .push bs :: rest, s =>
    match exec (.push bs) s with
    | .next t => runActions rest t
    | _ => none
  | .parse :: rest, s =>
    match exec .parse s with
    | .next t => (runActions rest t).map (fun x => (reportOf t :: x.1, x.2))
    | _ => none

/-- The host feeding bytes one at a time, with a `PARSE` after each (R107). -/
def oneByOne (bs : List Byte) : List RxAction := bs.flatMap (fun b => [.push [b], .parse])

end Sys2Proof.Machine
end

