-- ==== Sys2Proof/Safety.lean ====
section
/-! DEFINITION. What counts as a good state and a safe run, in the terms the statements use. -/

namespace Sys2Proof.Machine

/-- The invariants of 10_state.md R33 that one state can show, with the length bounds of R20: the buffer fits
RXBUF_CAP; PKT_VALID = 1 exactly when STATUS = OK; the packet registers keep their length bounds; while PKT_VALID = 1 the
tag is the packet's. (R33's last clause, about the frame consumed, speaks of a step and is a statement of its own.) -/
structure Inv (s : State) : Prop where
  bufferFits : Memory.wf s.params.rxbufCap s.rxbuf = true
  validIffOk : s.pktValid = true ↔ s.status = .ok
  dataBound : s.pktData.length ≤ Config.maxDataLen
  optBound : s.pktOpt.length ≤ Config.maxOptLen
  tagRight : s.pktValid = true → s.pktTag = classifyPacket (resultPacket s)

/-- A state with another outcome reported and nothing else changed. -/
def State.withReply (s : State) (r : Reply) : State := { s with reply := r }

/-- The seven registers of the block are the same in two states (10_state.md R20). -/
def sameRegisters (s t : State) : Prop :=
  t.rxbuf = s.rxbuf ∧ t.status = s.status ∧ t.pktValid = s.pktValid ∧ t.pktTag = s.pktTag ∧ t.pktType = s.pktType ∧
    t.pktData = s.pktData ∧ t.pktOpt = s.pktOpt

/-- The parameters and the host's waiting commands, which no operation writes (R29), are the same in two states. -/
def sameOutside (s t : State) : Prop := t.params = s.params ∧ t.commands = s.commands

/-- The packet registers hold exactly this packet, with its tag, and the flags say so (10_state.md R23). -/
def holdsPacket (s : State) (p : Packet) : Prop :=
  s.status = .ok ∧ s.pktValid = true ∧ resultPacket s = p ∧ s.pktTag = classifyPacket p

/-- A well-formed UTE telegram, as 42_ute_fields.md R140 writes the test. -/
def uteTelegram (p : Packet) : Prop := p.ptype = 0x01 ∧ p.data.length = 13 ∧ p.data[0]? = some 0xD4

/-- A well-formed BS4 telegram, as 43_bs4_fields.md R160 writes the test. -/
def bs4Telegram (p : Packet) : Prop := p.ptype = 0x01 ∧ p.data.length = 10 ∧ p.data[0]? = some 0xA5

/-- The state after an operation that hands over `r` and writes no register. -/
def hands (s : State) (r : Result) : Host.Outcome State Fault Refusal := .next (s.withReply (.result r))

/-- The state after an operation that faults with `f` (60_exceptions.md R205). -/
def faults (s : State) (f : OpFault) : Host.Outcome State Fault Refusal := .next (s.withReply (.fault f))

/-- What a `PARSE` that reports no packet leaves in the flags and the reply (10_state.md R23), with nothing outside the
block changed. The four other result registers are unspecified and nothing is said of them. -/
def reportsNoPacket (st : Status) (s t : State) : Prop :=
  t.status = st ∧ t.pktValid = false ∧ t.reply = .result (.status st) ∧ sameOutside s t

/-- `DECODE F` as the host issues it (30_encoding.md R79): `RESET`, `PUSH F`, `PARSE`, from `s` to `t`. -/
def decodes (bs : List Byte) (s t : State) : Prop :=
  ∃ s₁ s₂, exec .reset s = .next s₁ ∧ exec (.push bs) s₁ = .next s₂ ∧ exec .parse s₂ = .next t

/-- The operations that take a packet operand (30_encoding.md R78). -/
def packetOps (la : Address) (en : Bool) : List (PktOperand → Instr) :=
  [.encode, .classify, .radioRorg, .radioSender, .radioDest, .radioStatus, .uteBidir, .uteRespexp, .uteReqtype,
   .uteFlags, .uteTeachin, .uteDelete, .uteNchan, .uteManuf, .uteEeprorg, .uteFunc, .uteType, .uteCeep, .bs4Learn,
   .bs4Func, .bs4Type, .bs4Manuf, .bs4Ceep, (.uteResp · la), (.bs4Resp · la), (.respond · en la)]

/-- The extractors that report `FieldAbsent` with this information (60_exceptions.md R204; 41_packet_model.md R121 to
R124, 42_ute_fields.md R140, 43_bs4_fields.md R160). -/
def extractorsOf : AbsentField → List (PktOperand → Instr)
  | .rorg => [.radioRorg]
  | .sender => [.radioSender]
  | .dest => [.radioDest]
  | .status => [.radioStatus]
  | .ute => [.uteBidir, .uteRespexp, .uteReqtype, .uteFlags, .uteTeachin, .uteDelete, .uteNchan, .uteManuf, .uteEeprorg,
      .uteFunc, .uteType, .uteCeep]
  | .bs4 => [.bs4Learn, .bs4Func, .bs4Type, .bs4Manuf, .bs4Ceep]

/-- The packets a radio field or a telegram kind is absent from (R121 to R124, R140, R160). -/
def fieldMissing : AbsentField → Packet → Prop
  | .rorg, p => p.ptype ≠ 0x01 ∨ p.data.length < 1
  | .sender, p => p.ptype ≠ 0x01 ∨ p.data.length < 6
  | .dest, p => p.ptype ≠ 0x01
  | .status, p => p.ptype ≠ 0x01 ∨ p.data.length < 6
  | .ute, p => ¬ uteTelegram p
  | .bs4, p => ¬ bs4Telegram p

/-- The test of `UTE.RESP` that fails first (44_responder.md R171): the telegram, then the address. -/
def uteRequestFails : RequestTest → Packet → Address → Prop
  | .ute, p, _ => ¬ uteTelegram p
  | .addr, p, la => uteTelegram p ∧ la.length ≠ 4
  | .bs4, _, _ => False
  | .notAQuery, _, _ => False

/-- The test of `BS4.RESP` that fails first (44_responder.md R172): the telegram, the query bit, then the address. -/
def bs4RequestFails : RequestTest → Packet → Address → Prop
  | .bs4, p, _ => ¬ bs4Telegram p
  | .notAQuery, p, _ => bs4Telegram p ∧ ∃ b, p.data[4]? = some b ∧ b.getLsbD 3 = true
  | .addr, p, la => bs4Telegram p ∧ (∃ b, p.data[4]? = some b ∧ b.getLsbD 3 = false) ∧ la.length ≠ 4
  | .ute, _, _ => False

/-- Whether an instruction may write STATUS, PKT_VALID and the other result registers (the `written by` column of
10_state.md R20): `PARSE`, `RESET`, and the frame rows, which run both. -/
def writesResults : Instr → Bool
  | .reset | .parse => true
  | .frameEsp3 _ | .variantGeneric _ | .variantUteTeachIn _ | .variantBs4TeachIn _ | .variantRadio _ => true
  | .push _ | .encode _ | .crc8 _ | .classify _ => false
  | .radioRorg _ | .radioSender _ | .radioDest _ | .radioStatus _ => false
  | .uteBidir _ | .uteRespexp _ | .uteReqtype _ | .uteFlags _ | .uteTeachin _ | .uteDelete _ | .uteNchan _ => false
  | .uteManuf _ | .uteEeprorg _ | .uteFunc _ | .uteType _ | .uteCeep _ => false
  | .bs4Learn _ | .bs4Func _ | .bs4Type _ | .bs4Manuf _ | .bs4Ceep _ => false
  | .uteResp _ _ | .bs4Resp _ _ | .respond _ _ _ => false

/-- Whether an instruction may write RXBUF (R20): those and `PUSH`. -/
def writesBuffer : Instr → Bool
  | .push _ => true
  | i => writesResults i

/-- How many bits of a byte are 1. -/
def byteWeight (b : Byte) : Nat := (List.range 8).countP (fun k => b.getLsbD k)

/-- In how many bits two byte sequences of equal length differ (40_crc_framing.md R101). -/
def bitsDiffering (A B : List Byte) : Nat := ((List.zipWith (· ^^^ ·) A B).map byteWeight).sum

/-- One bit of one byte of a sequence flipped (40_crc_framing.md R106). -/
def flipBit (F : List Byte) (k : Nat) (j : Nat) : List Byte := F.modify k (fun b => b ^^^ (1 <<< j))

/-- The OP codes R78 does not list (93_implementation_defined.md U15). -/
def unlistedCode (n : Nat) : Prop :=
  n = 0x06 ∨ n = 0x07 ∨ (0x0C ≤ n ∧ n ≤ 0x0F) ∨ (0x1C ≤ n ∧ n ≤ 0x1F) ∨ (0x25 ≤ n ∧ n ≤ 0x27) ∨ (0x2B ≤ n ∧ n ≤ 0x3F)

/-- A run of `n` steps that stops with no machine fault. -/
def runsWithoutFault (s : State) (n : Nat) : Prop :=
  ∀ f, Host.Core.run Sys2Proof.core n s ≠ .fault f

end Sys2Proof.Machine
end

