-- ==== Sys2Proof/Certificates/Slice0/Obligations.lean ====
section
/-! DEFINITION. The statements for the provers. `spec/` rules are cited by number in each docstring. -/

open Sys2Proof Sys2Proof.Machine

/-! ## Encoding -/

/-- Decode and encode agree for every well-formed instruction, with every operand at every value, also with zero padding
after the command. The frame rows' layout is 30_encoding.md R60, the OP codes R78; the layout of operands is the model's
(notes/assumptions/1.md, 8.md, 10.md). -/
def Obligations.DecodeOfEncodeIsTheInstruction : Prop :=
  ∀ (i : Instr) (n : Nat), i.wf = true → decode (encode i ++ List.replicate n 0) = .ok i

/-- What the decoder answers is well formed: it never builds a frame instruction that its own row does not describe
(30_encoding.md R60, R74; notes/assumptions/8.md). -/
def Obligations.DecodedInstructionIsWellFormed : Prop :=
  ∀ (c : List Byte) (i : Instr), decode c = .ok i → i.wf = true

/-- A few commands decode to what they stand for. The OP codes are 30_encoding.md R78's and the two frames are the example
frames S2 and E1 of 95_test_vectors.md. The operand bytes of `PUSH` and of `UTE.MANUF PKT` are the model's own layout
(notes/assumptions/1.md), and so are the zero bytes that stand after the two table words (notes/assumptions/10.md). -/
def Obligations.SpecWordsDecode : Prop :=
  decodeTableWord 8 0x02 = some .parse ∧
  decodeTableWord 8 0x05 = some (.classify (.value ⟨0, [], []⟩)) ∧
  decode [0x17, 0x01] = .ok (.uteManuf .pkt) ∧
  decode [0x01, 0x01, 0x55, 0x01, 0x00, 0x00] = .ok (.push [0x55, 0x00]) ∧
  decode [0x55, 0x00, 0x00, 0x00, 0x05, 0x1B, 0x00] = .ok (.variantGeneric ⟨0x05, [], []⟩) ∧
  decode [0x55, 0x00, 0x0A, 0x07, 0x01, 0xEB, 0xA5, 0x04, 0x0C, 0x3E, 0xE0, 0x01, 0x94, 0xE3, 0xB9, 0x00, 0x01, 0xFF,
      0xFF, 0xFF, 0xFF, 0x40, 0x00, 0x54] =
    .ok (.variantBs4TeachIn ⟨0x01, [0xA5, 0x04, 0x0C, 0x3E, 0xE0, 0x01, 0x94, 0xE3, 0xB9, 0x00],
      [0x01, 0xFF, 0xFF, 0xFF, 0xFF, 0x40, 0x00]⟩)

/-- Exactly the OP codes R78 does not list (93 U15) are `IllegalOp`, whatever bytes follow, and the step that meets one
reports the fault with its code and changes no register (R75, R204, R205; IllegalOp before everything, R207). -/
def Obligations.UnlistedCodesAreIllegalOp : Prop :=
  (∀ (op : BitVec 6) (args : List Byte) (waiting : List (List Byte)) (s : State), unlistedCode op.toNat →
    s.commands = (op.setWidth 8 :: args) :: waiting →
    step s = faults { s with commands := waiting } (.illegalOp op)) ∧
  (∀ (op : BitVec 6) (args : List Byte) (code : BitVec 6), ¬ unlistedCode op.toNat →
    decode (op.setWidth 8 :: args) ≠ .error (.illegalOp code))

/-! ## The step -/

/-- A step runs the decoded instruction: when the oldest waiting command decodes to an instruction, the step is that
instruction's `exec` on the state without the command; with no command waiting the block is idle (60_exceptions.md R221).
The command queue is the model's (notes/assumptions/1.md, 2.md). -/
def Obligations.StepRunsTheDecodedInstruction : Prop :=
  (∀ (s : State) (c : List Byte) (waiting : List (List Byte)) (i : Instr),
    s.commands = c :: waiting → decode c = .ok i → step s = exec i { s with commands := waiting }) ∧
  (∀ s : State, s.commands = [] → step s = .next s)

/-- Every instruction answers a next state from every state: no operation stops the machine (00_scope.md R6; 60 R200
"Fatal conditions: none within the core"). -/
def Obligations.EveryInstructionAnswersANextState : Prop :=
  ∀ (i : Instr) (s : State), ∃ t, exec i s = .next t

/-- No run of any length, from any state, stops with a machine fault: `PARSE` never reads RXBUF out of range and never
consumes more than it holds (20_memory.md R46). -/
def Obligations.NoRunEndsInAMachineFault : Prop :=
  ∀ (s : State) (n : Nat), runsWithoutFault s n

/-! ## Reset and invariants -/

/-- `RESET` and the state after power-on (70_reset_and_hazards.md R230), and that a `PARSE` after `RESET` changes nothing
further in what is specified. -/
def Obligations.ResetEmptiesTheBlock : Prop :=
  (∀ s : State, ∃ t, exec .reset s = .next t ∧ t.rxbuf = [] ∧ t.status = .incomplete ∧ t.pktValid = false ∧
    t.reply = .result .done ∧ sameOutside s t ∧
    ∃ u, exec .parse t = .next u ∧ u.rxbuf = [] ∧ reportsNoPacket .incomplete t u) ∧
  (State.reset.rxbuf = [] ∧ State.reset.status = .incomplete ∧ State.reset.pktValid = false) ∧
  (encode .reset).head? = some 0x00

/-- The invariant of 10_state.md R33 (its clauses about one state) holds at reset, at the spec's default parameters
(the values of the four unspecified registers at reset are free values, notes/assumptions/5.md). -/
def Obligations.InvariantHoldsAtReset : Prop := Inv State.reset

/-- Every step keeps the invariant of 10_state.md R33 (its clauses about one state): buffer within RXBUF_CAP, PKT_VALID
with STATUS, length bounds, tag. -/
def Obligations.EveryStepKeepsTheInvariant : Prop :=
  ∀ (s t : State), Inv s → step s = .next t → Inv t

/-- Only the operations R20 names write a register (10_state.md R20, R23, R28), and nothing writes the parameters or the
host's waiting commands (R29). -/
def Obligations.OnlyTheNamedOperationsWrite : Prop :=
  ∀ (i : Instr) (s t : State), exec i s = .next t →
    sameOutside s t ∧
    (writesBuffer i = false → ∀ a, byteAt t.rxbuf a = byteAt s.rxbuf a) ∧
    (writesResults i = false →
      t.status = s.status ∧ t.pktValid = s.pktValid ∧ t.pktTag = s.pktTag ∧ t.pktType = s.pktType ∧
      t.pktData = s.pktData ∧ t.pktOpt = s.pktOpt ∧ t.freeCount = s.freeCount)

/-- A fault leaves no trace: the state after an operation that faults is the state before it, but for the outcome the
host is told (60_exceptions.md R205). The second clause is the operation the decoder faults: the command is gone from the
host's queue and nothing else has changed. That `step` takes a command off a queue, whole, is the model's choice
(notes/assumptions/1.md, 11.md), and so is the reply the host reads (notes/assumptions/3.md). -/
def Obligations.FaultsLeaveNoTrace : Prop :=
  (∀ (i : Instr) (s t : State) (f : OpFault), exec i s = .next t → t.reply = .fault f → t = s.withReply (.fault f)) ∧
  (∀ (s : State) (c : List Byte) (waiting : List (List Byte)) (code : BitVec 6), s.commands = c :: waiting →
    decode c = .error (.illegalOp code) →
    step s = .next ({ s with commands := waiting }.withReply (.fault (.illegalOp code))))

/-- Nothing of a packet that was parsed before can come back: two states that agree on RXBUF, the parameters and the
model's own bookkeeping, whatever STATUS and the result registers hold, are taken to the same state by `PARSE` and by
`RESET` (10_state.md R23, R32; 93 U10). -/
def Obligations.EarlierPacketsLeaveNoTrace : Prop :=
  ∀ s s' : State, s'.rxbuf = s.rxbuf → s'.params = s.params → s'.commands = s.commands → s'.freeCount = s.freeCount →
    exec .parse s' = exec .parse s ∧ exec .reset s' = exec .reset s

/-- Which operation raises which fault, why, and with what information (60_exceptions.md R204's table; `IllegalOp` is the
decoder's and no instruction raises it). `FieldAbsent` names the field or telegram kind the packet lacks, and
`MalformedRequest` the first test the request fails, in the order of 44_responder.md R171 and R172. -/
def Obligations.FaultsComeFromTheirCauses : Prop :=
  ∀ (i : Instr) (s t : State) (f : OpFault), i.wf = true → exec i s = .next t → t.reply = .fault f →
    match f with
    | .bufferFull held offered => ∃ bs, i = .push bs ∧ held = s.rxbuf.length ∧ offered = bs.length ∧
        ∃ cap, s.params.rxbufCap = some cap ∧ cap < held + offered
    | .invalidPacket dlen olen => ∃ o p, i = .encode o ∧ packetOf o s = .ok p ∧ dlen = p.data.length ∧
        olen = p.opt.length ∧ (65535 < dlen ∨ 255 < olen)
    | .fieldAbsent w => ∃ mk ∈ extractorsOf w, ∃ o p, i = mk o ∧ packetOf o s = .ok p ∧ fieldMissing w p
    | .malformedRequest r => ∃ o la p, packetOf o s = .ok p ∧
        ((i = .uteResp o la ∧ uteRequestFails r p la) ∨ (i = .bs4Resp o la ∧ bs4RequestFails r p la))
    | .noPacket => s.pktValid = false ∧ ∃ la en, ∃ mk ∈ packetOps la en, i = mk .pkt
    | .illegalOp _ => False

/-- The numeric codes: statuses (R203), tags (10_state.md R20), faults (R204). -/
def Obligations.NumericCodes : Prop :=
  (statusCode .ok = 0 ∧ statusCode .incomplete = 1 ∧ statusCode .crcMismatch = 3 ∧ ∀ st, statusCode st ≠ 2) ∧
  (tagCode .generic = 0 ∧ tagCode .radio = 1 ∧ tagCode .uteTeachIn = 2 ∧ tagCode .bs4TeachIn = 3) ∧
  (∀ a b w r c, faultCode (.bufferFull a b) = 1 ∧ faultCode (.invalidPacket a b) = 2 ∧ faultCode (.fieldAbsent w) = 3 ∧
    faultCode (.malformedRequest r) = 4 ∧ faultCode .noPacket = 5 ∧ faultCode (.illegalOp c) = 6)

/-! ## CRC8 -/

/-- `CRC8 S` hands over the checksum for every sequence (40_crc_framing.md R100): 0 for the empty one, and for one more
byte the eight steps of the pseudocode on the running value XOR the byte. -/
def Obligations.Crc8RunsThePseudocode : Prop :=
  (∀ (S : List Byte) (s : State), exec (.crc8 S) s = hands s (.byte (crc8 S))) ∧
  crc8 [] = 0x00 ∧
  (∀ (S : List Byte) (b : Byte), crc8 (S ++ [b]) =
    (fun c : Byte => if c.getLsbD 7 then (c <<< 1) ^^^ 0x07 else c <<< 1)^[8] (crc8 S ^^^ b)) ∧
  (∀ S : List Byte, (encode (.crc8 S)).head? = some 0x04)

/-- The table of R101 is the function's table, and the table form computes the same function on every sequence
(R100, R101). -/
def Obligations.CrcTableFormAgrees : Prop :=
  (∀ v : Byte, crcTable[v.toNat]? = some (crc8 [v])) ∧ ∀ S : List Byte, crc8ByTable S = crc8 S

/-- A sequence followed by its own checksum has checksum 0, and so have zeros (R100, corner cases). -/
def Obligations.CrcOfSequenceWithItsChecksumIsZero : Prop :=
  (∀ S : List Byte, crc8 (S ++ [crc8 S]) = 0) ∧ ∀ n : Nat, crc8 (List.replicate n 0) = 0

/-- CRC8 is linear over XOR for sequences of equal length (R101). -/
def Obligations.CrcIsLinear : Prop :=
  ∀ A B : List Byte, A.length = B.length → crc8 (List.zipWith (· ^^^ ·) A B) = crc8 A ^^^ crc8 B

/-- Sequences of equal length that differ in an odd number of bits have different checksums (R101); one bit is an odd
number. -/
def Obligations.CrcDetectsOddBitErrors : Prop :=
  ∀ A B : List Byte, A.length = B.length → bitsDiffering A B % 2 = 1 → crc8 A ≠ crc8 B

/-! ## PUSH, PARSE, ENCODE -/

/-- `PUSH S` appends every byte in order, or takes none and faults (40_crc_framing.md R102); where both fit, pushing A and
then B leaves the buffer that pushing A ++ B leaves. -/
def Obligations.PushAppendsAllOrNothing : Prop :=
  (∀ (bs : List Byte) (s : State),
    (∀ cap, s.params.rxbufCap = some cap → s.rxbuf.length + bs.length ≤ cap) →
    exec (.push bs) s = .next (({ s with rxbuf := s.rxbuf ++ bs }).withReply (.result .done))) ∧
  (∀ (bs : List Byte) (s : State) (cap : Nat), s.params.rxbufCap = some cap → cap < s.rxbuf.length + bs.length →
    exec (.push bs) s = faults s (.bufferFull s.rxbuf.length bs.length)) ∧
  (∀ (as bs : List Byte) (s : State),
    (∀ cap, s.params.rxbufCap = some cap → s.rxbuf.length + as.length + bs.length ≤ cap) →
    ∃ t, exec (.push as) s = .next t ∧ exec (.push bs) t = exec (.push (as ++ bs)) s) ∧
  (∀ bs : List Byte, (encode (.push bs)).head? = some 0x01)

/-- `PARSE` (40_crc_framing.md R103), its five cases on the bytes of the buffer: A no sync byte; B header not complete; C
frame not complete, whatever the header CRC8 byte is; D both checksums right; E one wrong, with both settings of
P_CRC_DISCARD. -/
def Obligations.ParseFollowsItsFiveCases : Prop :=
  (∀ s : State, 0x55 ∉ s.rxbuf →
    ∃ t, exec .parse s = .next t ∧ t.rxbuf = [] ∧ reportsNoPacket .incomplete s t) ∧
  (∀ (s : State) (g r : List Byte), s.rxbuf = g ++ 0x55 :: r → 0x55 ∉ g → r.length < 5 →
    ∃ t, exec .parse s = .next t ∧ t.rxbuf = s.rxbuf ∧ reportsNoPacket .incomplete s t) ∧
  (∀ (s : State) (g rest : List Byte) (hi lo olen ty hcrc : Byte),
    s.rxbuf = g ++ [0x55, hi, lo, olen, ty, hcrc] ++ rest → 0x55 ∉ g →
    rest.length < hi.toNat * 256 + lo.toNat + olen.toNat + 1 →
    ∃ t, exec .parse s = .next t ∧ t.rxbuf = s.rxbuf ∧ reportsNoPacket .incomplete s t) ∧
  (∀ (s : State) (g data opt rest : List Byte) (hi lo olen ty hcrc dcrc : Byte),
    s.rxbuf = g ++ [0x55, hi, lo, olen, ty, hcrc] ++ data ++ opt ++ [dcrc] ++ rest → 0x55 ∉ g →
    data.length = hi.toNat * 256 + lo.toNat → opt.length = olen.toNat →
    ((crc8 [hi, lo, olen, ty] = hcrc ∧ crc8 (data ++ opt) = dcrc) →
      ∃ t, exec .parse s = .next t ∧ t.rxbuf = rest ∧ t.status = .ok ∧ t.pktValid = true ∧ t.pktType = ty ∧
        t.pktData = data ∧ t.pktOpt = opt ∧ t.pktTag = classifyPacket ⟨ty, data, opt⟩ ∧
        t.reply = .result (.status .ok) ∧ sameOutside s t) ∧
    (¬ (crc8 [hi, lo, olen, ty] = hcrc ∧ crc8 (data ++ opt) = dcrc) →
      ∃ t, exec .parse s = .next t ∧ reportsNoPacket .crcMismatch s t ∧
        (s.params.crcDiscard = .wholeFrame → t.rxbuf = rest) ∧
        (s.params.crcDiscard = .syncOnly →
          t.rxbuf = [hi, lo, olen, ty, hcrc] ++ data ++ opt ++ [dcrc] ++ rest))) ∧
  (encode .parse).head? = some 0x02

/-- A `PARSE` that reports INCOMPLETE leaves a buffer with a sync byte as it was, and a second `PARSE` reports INCOMPLETE
again with the same buffer, sync byte or not (20_memory.md R45). -/
def Obligations.IncompleteParseIsIdempotent : Prop :=
  ∀ (s t : State), exec .parse s = .next t → t.status = .incomplete →
    (0x55 ∈ s.rxbuf → t.rxbuf = s.rxbuf) ∧
    ∃ u, exec .parse t = .next u ∧ u.rxbuf = t.rxbuf ∧ u.status = .incomplete ∧ u.pktValid = false

/-- A `PARSE` that does not report INCOMPLETE makes progress: at least 7 bytes go with WHOLE_FRAME, at least 1 with
SYNC_ONLY (30_encoding.md R79), and what stays is the end of the buffer (20_memory.md R44: one contiguous prefix). -/
def Obligations.ParseMakesProgress : Prop :=
  ∀ (s t : State), exec .parse s = .next t → t.status ≠ .incomplete →
    ∃ gone : List Byte, s.rxbuf = gone ++ t.rxbuf ∧ 1 ≤ gone.length ∧
      (s.params.crcDiscard = .wholeFrame → 7 ≤ gone.length)

/-- A result other than INCOMPLETE depends only on the buffer up to the end of the frame: with more bytes behind, `PARSE`
reports the same and leaves those bytes behind what it left before (20_memory.md R51, its reason; R103 corner case 6). -/
def Obligations.LaterBytesDoNotChangeAParse : Prop :=
  ∀ (s t : State) (more : List Byte), exec .parse s = .next t → t.status ≠ .incomplete →
    exec .parse { s with rxbuf := s.rxbuf ++ more } = .next { t with rxbuf := t.rxbuf ++ more }

/-- `ENCODE p` (40_crc_framing.md R104): the frame bytes, `7 + dlen + olen` of them, or `InvalidPacket` with the two
lengths exactly where one does not fit its header field. -/
def Obligations.EncodeBuildsTheFrame : Prop :=
  (∀ (o : PktOperand) (s : State) (p : Packet), packetOf o s = .ok p →
    (p.data.length ≤ 65535 ∧ p.opt.length ≤ 255 →
      ∃ hi lo olen : Byte, hi.toNat * 256 + lo.toNat = p.data.length ∧ olen.toNat = p.opt.length ∧
        exec (.encode o) s = hands s (.frame ([0x55, hi, lo, olen, p.ptype, crc8 [hi, lo, olen, p.ptype]] ++
          p.data ++ p.opt ++ [crc8 (p.data ++ p.opt)]))) ∧
    (¬ (p.data.length ≤ 65535 ∧ p.opt.length ≤ 255) →
      exec (.encode o) s = faults s (.invalidPacket p.data.length p.opt.length))) ∧
  (∀ o : PktOperand, (encode (.encode o)).head? = some 0x03)

/-! ## Laws of the frame codec -/

/-- Round trip (40_crc_framing.md R105, which the spec derives from R103 and R104): `DECODE (ENCODE p)` holds the packet and its tag and empties the buffer;
conversely, whenever a `PARSE` reports OK, `ENCODE` of the result registers is exactly the bytes consumed from the sync
byte on. The buffer must be able to hold the frame, which every legal RXBUF_CAP is (R5). -/
def Obligations.EncodeThenDecodeRoundTrip : Prop :=
  (∀ (p : Packet) (s : State), p.data.length ≤ 65535 → p.opt.length ≤ 255 → paramsLegal s.params = true →
    ∃ bs, exec (.encode (.value p)) s = hands s (.frame bs) ∧
      ∃ t, decodes bs s t ∧ holdsPacket t p ∧ t.rxbuf = []) ∧
  (∀ s t : State, exec .parse s = .next t → t.status = .ok →
    ∃ g bs, exec (.encode .pkt) t = hands t (.frame bs) ∧ 0x55 ∉ g ∧ s.rxbuf = g ++ bs ++ t.rxbuf)

/-- Checksum rejection (40_crc_framing.md R106, which the spec derives from R101 and R103): a single bit flipped anywhere from offset 4 to the end of a frame makes
`DECODE` report CRC_MISMATCH. -/
def Obligations.SingleBitFlipIsRejected : Prop :=
  ∀ (p : Packet) (s : State) (F : List Byte) (k j : Nat), paramsLegal s.params = true →
    exec (.encode (.value p)) s = hands s (.frame F) → 4 ≤ k → k < F.length → j < 8 →
    ∃ t, decodes (flipBit F k j) s t ∧ t.status = .crcMismatch ∧ t.pktValid = false

/-- Incremental parsing (40_crc_framing.md R107, which the spec derives from R103): after `RESET`, a frame pushed one byte at a time with a `PARSE` after
each byte reports INCOMPLETE until the last byte and then the packet, once. -/
def Obligations.OneByteAtATimeParsesTheFrame : Prop :=
  ∀ (p : Packet) (s s₁ : State) (F : List Byte), paramsLegal s.params = true →
    exec (.encode (.value p)) s = hands s (.frame F) → exec .reset s = .next s₁ →
    ∃ t, runActions (oneByOne F) s₁ =
        some (List.replicate (F.length - 1) .incomplete ++ [.packet p (classifyPacket p)], t) ∧
      holdsPacket t p ∧ t.rxbuf = []

/-- The order of `PUSH` against `PARSE` does not change which packets come out (20_memory.md R51, a law the spec derives from R103): two ways of cutting the
same bytes into pushes, with any `PARSE` operations between, report the same sequence of results other than INCOMPLETE
once drained. No push may overflow the buffer, which an unbounded one never does. -/
def Obligations.CuttingTheStreamDoesNotMatter : Prop :=
  ∀ (as bs : List RxAction) (s : State), pushedBytes as = pushedBytes bs →
    fitsCap s.params.rxbufCap (s.rxbuf.length + (pushedBytes as).length) = true →
    ∃ ra ta da ua rb tb db ub,
      runActions as s = some (ra, ta) ∧ drain ta = some (da, ua) ∧
      runActions bs s = some (rb, tb) ∧ drain tb = some (db, ub) ∧
      ra.filter (· ≠ .incomplete) ++ da = rb.filter (· ≠ .incomplete) ++ db

/-- `DRAIN` always terminates, in INCOMPLETE (30_encoding.md R79). -/
def Obligations.DrainTerminates : Prop :=
  ∀ s : State, ∃ reports t, drain s = some (reports, t) ∧ t.status = .incomplete ∧ .incomplete ∉ reports

/-- Frames with garbage between them come out of `DRAIN` as their packets, in stream order, one per `PARSE`
(20_memory.md R50, 70 R247). Garbage is bytes that hold no sync byte. -/
def Obligations.DrainReportsFramesInStreamOrder : Prop :=
  ∀ (s : State) (frames : List (List Byte × Packet)) (tail : List Byte),
    (∀ x ∈ frames, 0x55 ∉ x.1 ∧ x.2.data.length ≤ 65535 ∧ x.2.opt.length ≤ 255) → 0x55 ∉ tail →
    s.rxbuf = frames.flatMap (fun x => x.1 ++ frameBytes (frameOf x.2)) ++ tail →
    ∃ t, drain s = some (frames.map (fun x => .packet x.2 (classifyPacket x.2)), t) ∧ t.rxbuf = []

/-- The deadlock of 70 R248: a full buffer of finite capacity whose first frame is not complete. Whatever pushes and
parses follow, the buffer stays, every `PARSE` reports INCOMPLETE, and after them every push of at least one byte faults
with `BufferFull` (every push of a run stands after the run before it; `PUSH []` changes nothing, 40_crc_framing.md R102);
`RESET` ends it. -/
def Obligations.FullBufferWithUnfinishedFrameIsStuck : Prop :=
  ∀ (s s' : State) (cap : Nat), s.params.rxbufCap = some cap → s.rxbuf.length = cap → 0x55 ∈ s.rxbuf →
    exec .parse s = .next s' → s'.status = .incomplete →
    (∀ as : List RxAction,
      ∃ reports t, runActions as s = some (reports, t) ∧ t.rxbuf = s.rxbuf ∧ (∀ r ∈ reports, r = .incomplete) ∧
        ∀ bs : List Byte, bs ≠ [] → exec (.push bs) t = faults t (.bufferFull cap bs.length)) ∧
    ∃ u, exec .reset s = .next u ∧ u.rxbuf = []

/-! ## The frame rows of the opcode table -/

/-- The VARIANT rows (30_encoding.md R74): a frame of the variant, arriving on a fresh buffer, leaves its packet in the
result registers with that variant's tag. That a frame row runs DECODE is the model's reading of the table
(notes/assumptions/8.md). -/
def Obligations.VariantFramesLeaveTheirPacketAndTag : Prop :=
  ∀ (p : Packet) (s : State), p.data.length ≤ 65535 → p.opt.length ≤ 255 → paramsLegal s.params = true →
    (p.ptype ≠ 0x01 → ∃ t, exec (.variantGeneric p) s = .next t ∧ holdsPacket t p ∧ t.pktTag = .generic ∧
      t.rxbuf = [] ∧ t.reply = .result (.status .ok) ∧ sameOutside s t) ∧
    (p.ptype = 0x01 → p.data[0]? = some 0xD4 → ∃ t, exec (.variantUteTeachIn p) s = .next t ∧ holdsPacket t p ∧
      t.pktTag = .uteTeachIn ∧ t.rxbuf = [] ∧ t.reply = .result (.status .ok) ∧ sameOutside s t) ∧
    (p.ptype = 0x01 → p.data[0]? = some 0xA5 → (∃ b, p.data[4]? = some b ∧ b.getLsbD 3 = false) →
      ∃ t, exec (.variantBs4TeachIn p) s = .next t ∧ holdsPacket t p ∧ t.pktTag = .bs4TeachIn ∧ t.rxbuf = [] ∧
      t.reply = .result (.status .ok) ∧ sameOutside s t) ∧
    (p.ptype = 0x01 → p.data[0]? ≠ some 0xD4 →
      ¬ (p.data[0]? = some 0xA5 ∧ ∃ b, p.data[4]? = some b ∧ b.getLsbD 3 = false) →
      ∃ t, exec (.variantRadio p) s = .next t ∧ holdsPacket t p ∧ t.pktTag = .radio ∧ t.rxbuf = [] ∧
      t.reply = .result (.status .ok) ∧ sameOutside s t)

/-- FRAME.ESP3 (30_encoding.md R60): a frame arriving on a fresh buffer with the checksum bytes the wire carries is taken
where both are right, and is a mismatch where one is not. That a frame row runs DECODE is the model's reading of the
table (notes/assumptions/8.md). -/
def Obligations.RawFrameIsTakenOrMismatched : Prop :=
  ∀ (f : Frame) (s : State), f.data.length ≤ 65535 → f.opt.length ≤ 255 → paramsLegal s.params = true →
    ∃ t, exec (.frameEsp3 f) s = .next t ∧ sameOutside s t ∧
      (checksumsRight f = true → holdsPacket t ⟨f.ftype, f.data, f.opt⟩ ∧ t.rxbuf = []) ∧
      (checksumsRight f = false → reportsNoPacket .crcMismatch s t ∧
        (s.params.crcDiscard = .wholeFrame → t.rxbuf = []) ∧
        (s.params.crcDiscard = .syncOnly → t.rxbuf = (frameBytes f).tail))

/-! ## Packet operands, CLASSIFY and the radio fields -/

/-- The operand `PKT` (41_packet_model.md R119, 10_state.md R23): `NoPacket` while PKT_VALID = 0, otherwise the same as
the packet in the result registers given as a value. -/
def Obligations.PktOperandIsTheResultRegisters : Prop :=
  ∀ (s : State) (la : Address) (en : Bool), ∀ mk ∈ packetOps la en,
    (s.pktValid = false → exec (mk .pkt) s = faults s .noPacket) ∧
    (s.pktValid = true → exec (mk .pkt) s = exec (mk (.value ⟨s.pktType, s.pktData, s.pktOpt⟩)) s)

/-- `CLASSIFY p` (41_packet_model.md R120), first match wins; total. The tag a `PARSE` stores is what `CLASSIFY PKT` then
hands over. -/
def Obligations.ClassifyPicksTheVariant : Prop :=
  (∀ (o : PktOperand) (s : State) (p : Packet), packetOf o s = .ok p →
    exec (.classify o) s = hands s (.tag (
      if p.ptype ≠ 0x01 then .generic
      else if 1 ≤ p.data.length ∧ p.data.getD 0 0 = 0xD4 then .uteTeachIn
      else if 5 ≤ p.data.length ∧ p.data.getD 0 0 = 0xA5 ∧ (p.data.getD 4 0).getLsbD 3 = false then .bs4TeachIn
      else .radio))) ∧
  (∀ s t : State, exec .parse s = .next t → t.status = .ok → exec (.classify .pkt) t = hands t (.tag t.pktTag)) ∧
  (∀ o : PktOperand, (encode (.classify o)).head? = some 0x05)

/-- The four radio fields (41_packet_model.md R121 to R124), each with the packets it is absent from. -/
def Obligations.RadioFieldsAreTheirBytes : Prop :=
  (∀ (o : PktOperand) (s : State) (p : Packet), packetOf o s = .ok p →
    (∀ (b : Byte) (rest : List Byte), p.ptype = 0x01 → p.data = b :: rest → exec (.radioRorg o) s = hands s (.byte b)) ∧
    (p.ptype ≠ 0x01 ∨ p.data.length < 1 → exec (.radioRorg o) s = faults s (.fieldAbsent .rorg)) ∧
    (∀ (front sender : List Byte) (st : Byte), p.ptype = 0x01 → p.data = front ++ sender ++ [st] → 1 ≤ front.length →
      sender.length = 4 →
      exec (.radioSender o) s = hands s (.address sender) ∧ exec (.radioStatus o) s = hands s (.byte st)) ∧
    (p.ptype ≠ 0x01 ∨ p.data.length < 6 →
      exec (.radioSender o) s = faults s (.fieldAbsent .sender) ∧
      exec (.radioStatus o) s = faults s (.fieldAbsent .status)) ∧
    (∀ (count : Byte) (dest rest : List Byte), p.ptype = 0x01 → p.opt = count :: (dest ++ rest) → dest.length = 4 →
      exec (.radioDest o) s = hands s (.address dest)) ∧
    (p.ptype = 0x01 → p.opt.length < 5 → exec (.radioDest o) s = hands s (.address [0xFF, 0xFF, 0xFF, 0xFF])) ∧
    (p.ptype ≠ 0x01 → exec (.radioDest o) s = faults s (.fieldAbsent .dest))) ∧
  (∀ o : PktOperand, (encode (.radioRorg o)).head? = some 0x08 ∧ (encode (.radioSender o)).head? = some 0x09 ∧
    (encode (.radioDest o)).head? = some 0x0A ∧ (encode (.radioStatus o)).head? = some 0x0B)

/-! ## UTE teach-in fields -/

/-- The DB6 bits (42_ute_fields.md R140 to R144) of a well-formed UTE telegram, and `FieldAbsent(UTE)` on every other
packet. -/
def Obligations.UteDb6BitsAreTheirFields : Prop :=
  (∀ (o : PktOperand) (s : State) (p : Packet), packetOf o s = .ok p →
    (∀ db6 : Byte, uteTelegram p → p.data[1]? = some db6 →
      exec (.uteBidir o) s = hands s (.bit (BitVec.ofNat 1 (db6.toNat / 128))) ∧
      exec (.uteRespexp o) s = hands s (.bit (BitVec.ofNat 1 (1 - db6.toNat / 64 % 2))) ∧
      exec (.uteReqtype o) s = hands s (.bits2 (BitVec.ofNat 2 (db6.toNat / 16 % 4))) ∧
      exec (.uteFlags o) s = hands s (.bits4 (BitVec.ofNat 4 (db6.toNat % 16)))) ∧
    (¬ uteTelegram p →
      exec (.uteBidir o) s = faults s (.fieldAbsent .ute) ∧ exec (.uteRespexp o) s = faults s (.fieldAbsent .ute) ∧
      exec (.uteReqtype o) s = faults s (.fieldAbsent .ute) ∧ exec (.uteFlags o) s = faults s (.fieldAbsent .ute))) ∧
  (∀ o : PktOperand, (encode (.uteBidir o)).head? = some 0x10 ∧ (encode (.uteRespexp o)).head? = some 0x11 ∧
    (encode (.uteReqtype o)).head? = some 0x12 ∧ (encode (.uteFlags o)).head? = some 0x13)

/-- `UTE.TEACHIN` and `UTE.DELETE` are the two halves of P_UTE_TEACHIN_DECODE on the request type and the flags, for every
such function (42_ute_fields.md R145 to R147); a legal one meets the source's data point; under the default exactly one of
the two fields is 1, `delete` for request type `0b01` alone. That the function stands as two truth tables is the model's
choice (notes/assumptions/13.md), and so is that State.reset carries R145's default (notes/assumptions/6.md). -/
def Obligations.UteTeachinAndDeleteFollowTheParameter : Prop :=
  (∀ (o : PktOperand) (s : State) (p : Packet), packetOf o s = .ok p →
    (∀ db6 : Byte, uteTelegram p → p.data[1]? = some db6 →
      exec (.uteTeachin o) s = hands s (.bit (teachInDecode s.params (db6.extractLsb 5 4) (db6.extractLsb 3 0)).1) ∧
      exec (.uteDelete o) s = hands s (.bit (teachInDecode s.params (db6.extractLsb 5 4) (db6.extractLsb 3 0)).2)) ∧
    (¬ uteTelegram p →
      exec (.uteTeachin o) s = faults s (.fieldAbsent .ute) ∧ exec (.uteDelete o) s = faults s (.fieldAbsent .ute))) ∧
  (∀ P : Params, paramsLegal P = true → teachInDecode P 0b10 0b0000 = (1, 0)) ∧
  (∀ (rt : BitVec 2) (fl : BitVec 4), teachInDecode State.reset.params rt fl = if rt = 0b01 then (0, 1) else (1, 0)) ∧
  (∀ o : PktOperand, (encode (.uteTeachin o)).head? = some 0x14 ∧ (encode (.uteDelete o)).head? = some 0x15)

/-- The byte fields of a UTE telegram (42_ute_fields.md R148 to R153), its 11-bit manufacturer and the constant
`contains_eep`, and `FieldAbsent(UTE)` on every other packet. -/
def Obligations.UteByteFieldsAreTheirBytes : Prop :=
  (∀ (o : PktOperand) (s : State) (p : Packet), packetOf o s = .ok p →
    (∀ (d1 d2 d3 d4 d5 d6 d7 : Byte) (rest : List Byte), p.ptype = 0x01 → p.data.length = 13 →
      p.data = [0xD4, d1, d2, d3, d4, d5, d6, d7] ++ rest →
      exec (.uteNchan o) s = hands s (.byte d2) ∧
      exec (.uteManuf o) s = hands s (.bits11 (BitVec.ofNat 11 (d4.toNat % 8 * 256 + d3.toNat))) ∧
      exec (.uteType o) s = hands s (.byte d5) ∧ exec (.uteFunc o) s = hands s (.byte d6) ∧
      exec (.uteEeprorg o) s = hands s (.byte d7) ∧ exec (.uteCeep o) s = hands s (.bit 1)) ∧
    (¬ uteTelegram p →
      exec (.uteNchan o) s = faults s (.fieldAbsent .ute) ∧ exec (.uteManuf o) s = faults s (.fieldAbsent .ute) ∧
      exec (.uteType o) s = faults s (.fieldAbsent .ute) ∧ exec (.uteFunc o) s = faults s (.fieldAbsent .ute) ∧
      exec (.uteEeprorg o) s = faults s (.fieldAbsent .ute) ∧ exec (.uteCeep o) s = faults s (.fieldAbsent .ute))) ∧
  (∀ o : PktOperand, (encode (.uteNchan o)).head? = some 0x16 ∧ (encode (.uteManuf o)).head? = some 0x17 ∧
    (encode (.uteEeprorg o)).head? = some 0x18 ∧ (encode (.uteFunc o)).head? = some 0x19 ∧
    (encode (.uteType o)).head? = some 0x1A ∧ (encode (.uteCeep o)).head? = some 0x1B)

/-! ## BS4 teach-in fields -/

/-- The BS4 fields (43_bs4_fields.md R160 to R165) of a well-formed BS4 telegram, teach-in or not, and `FieldAbsent(BS4)`
on every other packet; `BS4.LEARN` is 1 exactly when `CLASSIFY` says BS4_TEACH_IN (R161, corner cases). -/
def Obligations.Bs4FieldsAreTheirBits : Prop :=
  (∀ (o : PktOperand) (s : State) (p : Packet), packetOf o s = .ok p →
    (∀ (d1 d2 d3 d4 : Byte) (rest : List Byte), p.ptype = 0x01 → p.data.length = 10 →
      p.data = [0xA5, d1, d2, d3, d4] ++ rest →
      exec (.bs4Learn o) s = hands s (.bit (BitVec.ofNat 1 (1 - d4.toNat / 8 % 2))) ∧
      exec (.bs4Func o) s = hands s (.bits6 (BitVec.ofNat 6 (d1.toNat / 4))) ∧
      exec (.bs4Type o) s = hands s (.bits7 (BitVec.ofNat 7 (d1.toNat % 4 * 32 + d2.toNat / 8))) ∧
      exec (.bs4Manuf o) s = hands s (.bits11 (BitVec.ofNat 11 (d2.toNat % 8 * 256 + d3.toNat))) ∧
      exec (.bs4Ceep o) s = hands s (.bit (BitVec.ofNat 1 (d4.toNat / 128))) ∧
      (exec (.bs4Learn o) s = hands s (.bit 1) ↔ exec (.classify o) s = hands s (.tag .bs4TeachIn))) ∧
    (¬ bs4Telegram p →
      exec (.bs4Learn o) s = faults s (.fieldAbsent .bs4) ∧ exec (.bs4Func o) s = faults s (.fieldAbsent .bs4) ∧
      exec (.bs4Type o) s = faults s (.fieldAbsent .bs4) ∧ exec (.bs4Manuf o) s = faults s (.fieldAbsent .bs4) ∧
      exec (.bs4Ceep o) s = faults s (.fieldAbsent .bs4))) ∧
  (∀ o : PktOperand, (encode (.bs4Learn o)).head? = some 0x20 ∧ (encode (.bs4Func o)).head? = some 0x21 ∧
    (encode (.bs4Type o)).head? = some 0x22 ∧ (encode (.bs4Manuf o)).head? = some 0x23 ∧
    (encode (.bs4Ceep o)).head? = some 0x24)

/-! ## The responder -/

/-- `UTE.RESP p, la` (44_responder.md R170, R171): the response, and the tests in their order. -/
def Obligations.UteRespBuildsTheAnswer : Prop :=
  (∀ (o : PktOperand) (s : State) (p : Packet) (la : Address), packetOf o s = .ok p →
    (∀ (db6 d2 d3 d4 d5 d6 d7 s0 s1 s2 s3 st : Byte), p.ptype = 0x01 →
      p.data = [0xD4, db6, d2, d3, d4, d5, d6, d7, s0, s1, s2, s3, st] → la.length = 4 →
      exec (.uteResp o la) s = hands s (.packet
        ⟨0x01, [0xD4, 0x91, d2, d3, d4, d5, d6, d7] ++ la ++ [0x00], [0x03, s0, s1, s2, s3, 0xFF, 0x00]⟩)) ∧
    (¬ uteTelegram p → exec (.uteResp o la) s = faults s (.malformedRequest .ute)) ∧
    (uteTelegram p → la.length ≠ 4 → exec (.uteResp o la) s = faults s (.malformedRequest .addr))) ∧
  (∀ (o : PktOperand) (la : Address), (encode (.uteResp o la)).head? = some 0x28)

/-- `BS4.RESP p, la` (44_responder.md R170, R172): the response, and the tests in their order. -/
def Obligations.Bs4RespBuildsTheAnswer : Prop :=
  (∀ (o : PktOperand) (s : State) (p : Packet) (la : Address), packetOf o s = .ok p →
    (∀ (d1 d2 d3 d4 s0 s1 s2 s3 st : Byte), p.ptype = 0x01 → p.data = [0xA5, d1, d2, d3, d4, s0, s1, s2, s3, st] →
      (d4.getLsbD 3 = false → la.length = 4 →
        exec (.bs4Resp o la) s = hands s (.packet
          ⟨0x01, [0xA5, d1, d2, d3, 0xF0] ++ la ++ [0x00], [0x03, s0, s1, s2, s3, 0xFF, 0x00]⟩)) ∧
      (d4.getLsbD 3 = true → exec (.bs4Resp o la) s = faults s (.malformedRequest .notAQuery)) ∧
      (d4.getLsbD 3 = false → la.length ≠ 4 → exec (.bs4Resp o la) s = faults s (.malformedRequest .addr))) ∧
    (¬ bs4Telegram p → exec (.bs4Resp o la) s = faults s (.malformedRequest .bs4))) ∧
  (∀ (o : PktOperand) (la : Address), (encode (.bs4Resp o la)).head? = some 0x29)

/-- `RESPOND p, en, la` (44_responder.md R174): what `UTE.RESP` or `BS4.RESP` hands over where the gate is open, and
`none`, without a fault, everywhere else. -/
def Obligations.RespondGatesTheEncoders : Prop :=
  (∀ (o : PktOperand) (s : State) (p : Packet) (en : Bool) (la : Address), packetOf o s = .ok p →
    (en = true → uteTelegram p → la.length = 4 →
      exec (.respond o en la) s = exec (.uteResp o la) s ∧ ∃ r, exec (.respond o en la) s = hands s (.packet r)) ∧
    (en = true → bs4Telegram p → (∃ b, p.data[4]? = some b ∧ b.getLsbD 3 = false) → la.length = 4 →
      exec (.respond o en la) s = exec (.bs4Resp o la) s ∧ ∃ r, exec (.respond o en la) s = hands s (.packet r)) ∧
    (en = false ∨ la.length ≠ 4 ∨
        (¬ uteTelegram p ∧ ¬ (bs4Telegram p ∧ ∃ b, p.data[4]? = some b ∧ b.getLsbD 3 = false)) →
      exec (.respond o en la) s = hands s .absent)) ∧
  (∀ (o : PktOperand) (en : Bool) (la : Address), (encode (.respond o en la)).head? = some 0x2A)

/-- A response is addressed from the local address to the request's sender (44_responder.md R170, R173): the radio fields
of what `RESPOND` hands over are `la` and the request's sender. -/
def Obligations.ResponsesGoFromLocalAddressToSender : Prop :=
  ∀ (p r : Packet) (la sender : Address) (s : State),
    exec (.respond (.value p) true la) s = hands s (.packet r) →
    exec (.radioSender (.value p)) s = hands s (.address sender) →
    exec (.radioSender (.value r)) s = hands s (.address la) ∧
    exec (.radioDest (.value r)) s = hands s (.address sender) ∧
    exec (.radioStatus (.value r)) s = hands s (.byte 0x00)

/-- The block's own responses look like requests (70_reset_and_hazards.md R244): `RESPOND` answers what it handed over,
for every local address of the second host. -/
def Obligations.ResponsesAreAnsweredAgain : Prop :=
  ∀ (p r : Packet) (la la' : Address) (s : State), la'.length = 4 →
    exec (.respond (.value p) true la) s = hands s (.packet r) →
    classifyPacket r = classifyPacket p ∧ ∃ r', exec (.respond (.value r) true la') s = hands s (.packet r')

/-- The responses are constant in their result bits (70_reset_and_hazards.md R245): `UTE.RESP` hands over the same packet
whatever the request's DB6, and `BS4.RESP` whatever the request's data byte 4 is, as long as it is a query. -/
def Obligations.ResponsesIgnoreTheRequestBits : Prop :=
  ∀ (p : Packet) (la : Address) (x : Byte) (s : State),
    (uteTelegram p → exec (.uteResp (.value { p with data := p.data.set 1 x }) la) s = exec (.uteResp (.value p) la) s) ∧
    (bs4Telegram p → x.getLsbD 3 = false → (∃ b, p.data[4]? = some b ∧ b.getLsbD 3 = false) →
      exec (.bs4Resp (.value { p with data := p.data.set 4 x }) la) s = exec (.bs4Resp (.value p) la) s)

/-- The teach-in auto-answer end to end (60_exceptions.md R214): the packet `RESPOND` hands over can always be encoded,
and its frame decodes back to it at the receiving side. -/
def Obligations.AnswerSurvivesTheWire : Prop :=
  ∀ (p r : Packet) (la : Address) (s : State), paramsLegal s.params = true →
    exec (.respond (.value p) true la) s = hands s (.packet r) →
    ∃ bs, exec (.encode (.value r)) s = hands s (.frame bs) ∧ ∃ t, decodes bs s t ∧ holdsPacket t r ∧ t.rxbuf = []

/-- The result registers are a copy, not a window on RXBUF (10_state.md R24): after a `PARSE` that reported OK, any number
of pushes leave the packet, its tag and what `PKT` names. -/
def Obligations.PushesLeaveTheDecodedPacket : Prop :=
  ∀ (s t : State) (as : List RxAction) (reports : List Report) (p : Packet), holdsPacket s p → .parse ∉ as →
    runActions as s = some (reports, t) → holdsPacket t p ∧ reports = [] ∧ packetOf .pkt t = .ok p
end

