-- ==== Sys2Proof/Laws/Encoding.lean ====
section
/-! SUPPORT. The operand readers undo the operand writers, whatever follows. -/

namespace Sys2Proof

/-- The end marker of a byte sequence operand. -/
@[simp] theorem takeSeq_end (after : List Byte) : takeSeq (0 :: after) = .ok ([], after) := by
  cases after <;> simp [takeSeq]

/-- One marked byte of a byte sequence operand. -/
@[simp] theorem takeSeq_byte (b : Byte) (more : List Byte) :
    takeSeq (1 :: b :: more) = (takeSeq more).map (fun x => (b :: x.1, x.2)) := by
  simp only [takeSeq]
  cases takeSeq more <;> simp [Except.map]

/-- A byte sequence operand is read back. -/
@[simp] theorem takeSeq_putSeq (bs after : List Byte) : takeSeq (putSeq bs ++ after) = .ok (bs, after) := by
  induction bs with
  | nil => exact takeSeq_end after
  | cons b bs ih => simp only [putSeq, List.cons_append, takeSeq_byte, ih, Except.map]

/-- A packet operand is read back. -/
@[simp] theorem takePacket_putPacket (o : PktOperand) (after : List Byte) :
    takePacket (putPacket o ++ after) = .ok (o, after) := by
  cases o with
  | pkt => simp [putPacket, takePacket]
  | value p => simp [putPacket, takePacket, List.append_assoc]

/-- A bit operand is read back. -/
@[simp] theorem takeBit_putBit (b : Bool) (after : List Byte) : takeBit (putBit b ++ after) = .ok (b, after) := by
  cases b <;> simp [putBit, takeBit]

/-- A command ends well before zero bytes. -/
@[simp] theorem atEnd_zeros (i : Instr) (n : Nat) : atEnd i (List.replicate n 0) = .ok i := by
  simp [atEnd]

/-- The two bytes of a data length in range are read back (20_memory.md R40). -/
theorem dataLen_bytes {n : Nat} (h : n ≤ Config.maxDataLen) : dataLen (lenHigh n) (lenLow n) = n := by
  have h' : n ≤ 65535 := h
  simp only [dataLen, lenHigh, lenLow, BitVec.toNat_ofNat]
  omega

/-- The optional length byte is read back. -/
theorem optLen_byte {n : Nat} (h : n ≤ Config.maxOptLen) : (lenLow n).toNat = n := by
  have h' : n ≤ 255 := h
  simp only [lenLow, BitVec.toNat_ofNat]
  omega

/-- A frame has 7 bytes more than its data and optional bytes (30_encoding.md R61). -/
@[simp] theorem frameBytes_length (f : Frame) : (frameBytes f).length = 7 + f.data.length + f.opt.length := by
  simp [frameBytes, headerBytes]
  omega

/-- A frame starts with the sync byte, and so do its command bytes (R60). -/
theorem frameBytes_cons (f : Frame) : frameBytes f = Config.sync :: (frameBytes f).tail := rfl

end Sys2Proof
end

