-- ==== Sys2Proof/Laws/State.lean ====
section
/-! SUPPORT. One lemma per field per update of `State`, so that no proof unfolds a record update. -/

namespace Sys2Proof.Machine

/-! answer -/

@[simp] theorem answer_rxbuf (r : Result) (s : State) : (answer r s).rxbuf = s.rxbuf := rfl
@[simp] theorem answer_status (r : Result) (s : State) : (answer r s).status = s.status := rfl
@[simp] theorem answer_pktValid (r : Result) (s : State) : (answer r s).pktValid = s.pktValid := rfl
@[simp] theorem answer_pktTag (r : Result) (s : State) : (answer r s).pktTag = s.pktTag := rfl
@[simp] theorem answer_pktType (r : Result) (s : State) : (answer r s).pktType = s.pktType := rfl
@[simp] theorem answer_pktData (r : Result) (s : State) : (answer r s).pktData = s.pktData := rfl
@[simp] theorem answer_pktOpt (r : Result) (s : State) : (answer r s).pktOpt = s.pktOpt := rfl
@[simp] theorem answer_freeCount (r : Result) (s : State) : (answer r s).freeCount = s.freeCount := rfl
@[simp] theorem answer_reply (r : Result) (s : State) : (answer r s).reply = .result r := rfl
@[simp] theorem answer_commands (r : Result) (s : State) : (answer r s).commands = s.commands := rfl
@[simp] theorem answer_params (r : Result) (s : State) : (answer r s).params = s.params := rfl

/-! raise -/

@[simp] theorem raise_rxbuf (f : OpFault) (s : State) : (raise f s).rxbuf = s.rxbuf := rfl
@[simp] theorem raise_status (f : OpFault) (s : State) : (raise f s).status = s.status := rfl
@[simp] theorem raise_pktValid (f : OpFault) (s : State) : (raise f s).pktValid = s.pktValid := rfl
@[simp] theorem raise_pktTag (f : OpFault) (s : State) : (raise f s).pktTag = s.pktTag := rfl
@[simp] theorem raise_pktType (f : OpFault) (s : State) : (raise f s).pktType = s.pktType := rfl
@[simp] theorem raise_pktData (f : OpFault) (s : State) : (raise f s).pktData = s.pktData := rfl
@[simp] theorem raise_pktOpt (f : OpFault) (s : State) : (raise f s).pktOpt = s.pktOpt := rfl
@[simp] theorem raise_freeCount (f : OpFault) (s : State) : (raise f s).freeCount = s.freeCount := rfl
@[simp] theorem raise_reply (f : OpFault) (s : State) : (raise f s).reply = .fault f := rfl
@[simp] theorem raise_commands (f : OpFault) (s : State) : (raise f s).commands = s.commands := rfl
@[simp] theorem raise_params (f : OpFault) (s : State) : (raise f s).params = s.params := rfl

/-! appendBytes -/

@[simp] theorem appendBytes_rxbuf (bs : List Byte) (s : State) : (appendBytes bs s).rxbuf = s.rxbuf ++ bs := rfl
@[simp] theorem appendBytes_status (bs : List Byte) (s : State) : (appendBytes bs s).status = s.status := rfl
@[simp] theorem appendBytes_pktValid (bs : List Byte) (s : State) : (appendBytes bs s).pktValid = s.pktValid := rfl
@[simp] theorem appendBytes_pktTag (bs : List Byte) (s : State) : (appendBytes bs s).pktTag = s.pktTag := rfl
@[simp] theorem appendBytes_pktType (bs : List Byte) (s : State) : (appendBytes bs s).pktType = s.pktType := rfl
@[simp] theorem appendBytes_pktData (bs : List Byte) (s : State) : (appendBytes bs s).pktData = s.pktData := rfl
@[simp] theorem appendBytes_pktOpt (bs : List Byte) (s : State) : (appendBytes bs s).pktOpt = s.pktOpt := rfl
@[simp] theorem appendBytes_freeCount (bs : List Byte) (s : State) : (appendBytes bs s).freeCount = s.freeCount := rfl
@[simp] theorem appendBytes_reply (bs : List Byte) (s : State) : (appendBytes bs s).reply = s.reply := rfl
@[simp] theorem appendBytes_commands (bs : List Byte) (s : State) : (appendBytes bs s).commands = s.commands := rfl
@[simp] theorem appendBytes_params (bs : List Byte) (s : State) : (appendBytes bs s).params = s.params := rfl

/-! setPacket -/

@[simp] theorem setPacket_rxbuf (p : Packet) (s : State) : (setPacket p s).rxbuf = s.rxbuf := rfl
@[simp] theorem setPacket_status (p : Packet) (s : State) : (setPacket p s).status = .ok := rfl
@[simp] theorem setPacket_pktValid (p : Packet) (s : State) : (setPacket p s).pktValid = true := rfl
@[simp] theorem setPacket_pktTag (p : Packet) (s : State) : (setPacket p s).pktTag = classifyPacket p := rfl
@[simp] theorem setPacket_pktType (p : Packet) (s : State) : (setPacket p s).pktType = p.ptype := rfl
@[simp] theorem setPacket_pktData (p : Packet) (s : State) : (setPacket p s).pktData = p.data := rfl
@[simp] theorem setPacket_pktOpt (p : Packet) (s : State) : (setPacket p s).pktOpt = p.opt := rfl
@[simp] theorem setPacket_freeCount (p : Packet) (s : State) : (setPacket p s).freeCount = s.freeCount := rfl
@[simp] theorem setPacket_reply (p : Packet) (s : State) : (setPacket p s).reply = s.reply := rfl
@[simp] theorem setPacket_commands (p : Packet) (s : State) : (setPacket p s).commands = s.commands := rfl
@[simp] theorem setPacket_params (p : Packet) (s : State) : (setPacket p s).params = s.params := rfl

/-! setNoPacket -/

@[simp] theorem setNoPacket_rxbuf (st : Status) (s : State) : (setNoPacket st s).rxbuf = s.rxbuf := rfl
@[simp] theorem setNoPacket_status (st : Status) (s : State) : (setNoPacket st s).status = st := rfl
@[simp] theorem setNoPacket_pktValid (st : Status) (s : State) : (setNoPacket st s).pktValid = false := rfl
@[simp] theorem setNoPacket_pktTag (st : Status) (s : State) : (setNoPacket st s).pktTag = Config.freeTag s.freeCount := rfl
@[simp] theorem setNoPacket_pktType (st : Status) (s : State) : (setNoPacket st s).pktType = Config.freeType s.freeCount := rfl
@[simp] theorem setNoPacket_pktData (st : Status) (s : State) : (setNoPacket st s).pktData = (Config.freeData s.freeCount).take Config.maxDataLen := rfl
@[simp] theorem setNoPacket_pktOpt (st : Status) (s : State) : (setNoPacket st s).pktOpt = (Config.freeOpt s.freeCount).take Config.maxOptLen := rfl
@[simp] theorem setNoPacket_freeCount (st : Status) (s : State) : (setNoPacket st s).freeCount = s.freeCount + 1 := rfl
@[simp] theorem setNoPacket_reply (st : Status) (s : State) : (setNoPacket st s).reply = s.reply := rfl
@[simp] theorem setNoPacket_commands (st : Status) (s : State) : (setNoPacket st s).commands = s.commands := rfl
@[simp] theorem setNoPacket_params (st : Status) (s : State) : (setNoPacket st s).params = s.params := rfl

/-! resetBlock -/

@[simp] theorem resetBlock_rxbuf (s : State) : (resetBlock s).rxbuf = [] := rfl
@[simp] theorem resetBlock_status (s : State) : (resetBlock s).status = .incomplete := rfl
@[simp] theorem resetBlock_pktValid (s : State) : (resetBlock s).pktValid = false := rfl
@[simp] theorem resetBlock_pktTag (s : State) : (resetBlock s).pktTag = Config.freeTag s.freeCount := rfl
@[simp] theorem resetBlock_pktType (s : State) : (resetBlock s).pktType = Config.freeType s.freeCount := rfl
@[simp] theorem resetBlock_pktData (s : State) : (resetBlock s).pktData = (Config.freeData s.freeCount).take Config.maxDataLen := rfl
@[simp] theorem resetBlock_pktOpt (s : State) : (resetBlock s).pktOpt = (Config.freeOpt s.freeCount).take Config.maxOptLen := rfl
@[simp] theorem resetBlock_freeCount (s : State) : (resetBlock s).freeCount = s.freeCount + 1 := rfl
@[simp] theorem resetBlock_reply (s : State) : (resetBlock s).reply = .result .done := rfl
@[simp] theorem resetBlock_commands (s : State) : (resetBlock s).commands = s.commands := rfl
@[simp] theorem resetBlock_params (s : State) : (resetBlock s).params = s.params := rfl

/-! withFetchWord -/

@[simp] theorem withFetchWord_rxbuf (s : State) (n w : Nat) : (s.withFetchWord n w).rxbuf = s.rxbuf := rfl
@[simp] theorem withFetchWord_status (s : State) (n w : Nat) : (s.withFetchWord n w).status = s.status := rfl
@[simp] theorem withFetchWord_pktValid (s : State) (n w : Nat) : (s.withFetchWord n w).pktValid = s.pktValid := rfl
@[simp] theorem withFetchWord_pktTag (s : State) (n w : Nat) : (s.withFetchWord n w).pktTag = s.pktTag := rfl
@[simp] theorem withFetchWord_pktType (s : State) (n w : Nat) : (s.withFetchWord n w).pktType = s.pktType := rfl
@[simp] theorem withFetchWord_pktData (s : State) (n w : Nat) : (s.withFetchWord n w).pktData = s.pktData := rfl
@[simp] theorem withFetchWord_pktOpt (s : State) (n w : Nat) : (s.withFetchWord n w).pktOpt = s.pktOpt := rfl
@[simp] theorem withFetchWord_freeCount (s : State) (n w : Nat) : (s.withFetchWord n w).freeCount = s.freeCount := rfl
@[simp] theorem withFetchWord_reply (s : State) (n w : Nat) : (s.withFetchWord n w).reply = s.reply := rfl
@[simp] theorem withFetchWord_commands (s : State) (n w : Nat) : (s.withFetchWord n w).commands = tableBytes n w :: s.commands := rfl
@[simp] theorem withFetchWord_params (s : State) (n w : Nat) : (s.withFetchWord n w).params = s.params := rfl

end Sys2Proof.Machine
end

