-- ==== Sys2Proof/Laws/Memory.lean ====
section
/-! SUPPORT. What the operations over RXBUF can do, once each: MemRead, Append, Consume, and that they keep the buffer
within RXBUF_CAP. -/

namespace Sys2Proof.Machine

/-- MemRead within the buffer answers the slice (00_scope.md R12). -/
theorem readMem_ok {m : Memory} {a n : Nat} (h : a + n ≤ m.length) : readMem m a n = .ok ((m.drop a).take n) := by
  simp [readMem, h]

/-- MemRead answers bytes only within the buffer, and then exactly `n` of them. -/
theorem readMem_eq_ok_iff {m : Memory} {a n : Nat} {bs : List Byte} :
    readMem m a n = .ok bs ↔ a + n ≤ m.length ∧ bs = (m.drop a).take n := by
  unfold readMem
  split
  · next h => simp [h, eq_comm]
  · next h => simp [h]

/-- A byte read answers the byte at that index. -/
theorem readByte_eq_ok_iff {m : Memory} {a : Nat} {b : Byte} : readByte m a = .ok b ↔ m[a]? = some b := by
  unfold readByte byteAt
  split <;> simp_all

/-- A byte read below the length answers. -/
theorem readByte_ok {m : Memory} {a : Nat} (h : a < m.length) : readByte m a = .ok m[a] :=
  readByte_eq_ok_iff.mpr (List.getElem?_eq_getElem h)

/-- Consume drops a prefix where the buffer holds that many bytes. -/
theorem consumeBytes_ok {k : Nat} {s : State} (h : k ≤ s.rxbuf.length) :
    consumeBytes k s = .ok { s with rxbuf := s.rxbuf.drop k } := by
  simp [consumeBytes, h]

/-- If Consume answers a state, it dropped a prefix and changed nothing else. -/
theorem consumeBytes_inv {k : Nat} {s t : State} (h : consumeBytes k s = .ok t) :
    k ≤ s.rxbuf.length ∧ t = { s with rxbuf := s.rxbuf.drop k } := by
  unfold consumeBytes at h
  split at h
  · next hk => exact ⟨hk, by injection h with h; exact h.symm⟩
  · cases h

/-- Fewer bytes fit where more did. -/
theorem fitsCap_mono {cap : Option Nat} {m n : Nat} (h : fitsCap cap n = true) (hmn : m ≤ n) : fitsCap cap m = true := by
  cases cap with
  | none => rfl
  | some c => simp only [fitsCap, decide_eq_true_eq] at h ⊢; omega

/-- An unbounded buffer takes everything (D3). -/
@[simp] theorem fitsCap_none (n : Nat) : fitsCap none n = true := rfl

/-- Append keeps the buffer within its capacity where the bytes fit. -/
theorem appendBytes_wf {bs : List Byte} {s : State}
    (h : fitsCap s.params.rxbufCap (s.rxbuf.length + bs.length) = true) :
    Memory.wf s.params.rxbufCap (appendBytes bs s).rxbuf = true := by
  simpa [Memory.wf] using h

/-- Consume keeps the buffer within its capacity. -/
theorem consumeBytes_wf {k : Nat} {s t : State} (hs : Memory.wf s.params.rxbufCap s.rxbuf = true)
    (h : consumeBytes k s = .ok t) : Memory.wf t.params.rxbufCap t.rxbuf = true := by
  obtain ⟨-, rfl⟩ := consumeBytes_inv h
  exact fitsCap_mono hs (by simp)

/-- Emptying the buffer keeps it within its capacity. -/
theorem empty_wf (cap : Option Nat) : Memory.wf cap [] = true := by
  cases cap <;> simp [Memory.wf, fitsCap]

/-- The buffer right after reset is within its capacity. -/
theorem reset_memory_wf : Memory.wf State.reset.params.rxbufCap State.reset.rxbuf = true := empty_wf _

/-- The indices of `memoryCells` are 0, 1, 2, ...: strictly rising, one entry a byte. -/
theorem memoryCells_addresses (m : Memory) : (memoryCells m).map Prod.fst = List.range m.length := by
  simp only [memoryCells, List.map_map, Function.comp_def]
  exact List.zipIdx_map_snd 0 m |>.trans (List.range_eq_range' (n := m.length)).symm

/-- Append leaves every byte that was in the buffer where it was (20_memory.md R44). -/
theorem byteAt_appendBytes {bs : List Byte} {s : State} {a : Nat} (h : a < s.rxbuf.length) :
    byteAt (appendBytes bs s).rxbuf a = byteAt s.rxbuf a := by
  simp [byteAt, List.getElem?_append_left h]

/-- The appended bytes follow the old ones, in order. -/
theorem byteAt_appendBytes_new (bs : List Byte) (s : State) (i : Nat) :
    byteAt (appendBytes bs s).rxbuf (s.rxbuf.length + i) = bs[i]? := by
  simp [byteAt, List.getElem?_append_right]

end Sys2Proof.Machine
end

