-- ==== Sys2Proof/Laws/Operations.lean ====
section
/-! SUPPORT. What each shared operation can do, once each. -/

namespace Sys2Proof.Machine

/-- A value operand is the value (41_packet_model.md R119). -/
@[simp] theorem packetOf_value (p : Packet) (s : State) : packetOf (.value p) s = .ok p := rfl

/-- `PKT` while PKT_VALID = 1 is the packet in the result registers. -/
theorem packetOf_pkt_valid {s : State} (h : s.pktValid = true) : packetOf .pkt s = .ok (resultPacket s) := by
  simp [packetOf, h]

/-- `PKT` while PKT_VALID = 0 is `NoPacket`. -/
theorem packetOf_pkt_invalid {s : State} (h : s.pktValid = false) : packetOf .pkt s = .error .noPacket := by
  simp [packetOf, h]

/-- An operand that names no packet is `PKT` while PKT_VALID = 0, and the fault is `NoPacket`. -/
theorem packetOf_eq_error {o : PktOperand} {s : State} {e : OpFault} (h : packetOf o s = .error e) :
    o = .pkt ∧ s.pktValid = false ∧ e = .noPacket := by
  cases o with
  | value p => cases h
  | pkt =>
    unfold packetOf at h
    simp only at h
    split at h
    · cases h
    · next hv => exact ⟨rfl, by simpa using hv, by injection h with h; exact h.symm⟩

/-- A pure operation answers its result ... -/
theorem onPacket_result {o : PktOperand} {f : Packet → Except OpFault Result} {s : State} {p : Packet} {r : Result}
    (hp : packetOf o s = .ok p) (hr : f p = .ok r) : onPacket o f s = .next (answer r s) := by
  simp [onPacket, hp, hr]

/-- ... or its own fault ... -/
theorem onPacket_fault {o : PktOperand} {f : Packet → Except OpFault Result} {s : State} {p : Packet} {e : OpFault}
    (hp : packetOf o s = .ok p) (he : f p = .error e) : onPacket o f s = .next (raise e s) := by
  simp [onPacket, hp, he]

/-- ... or the operand's. -/
theorem onPacket_noPacket {o : PktOperand} {f : Packet → Except OpFault Result} {s : State} {e : OpFault}
    (hp : packetOf o s = .error e) : onPacket o f s = .next (raise e s) := by
  simp [onPacket, hp]

/-- All a pure operation can do: a result, its own fault, or `NoPacket`; the state differs in `reply` alone. -/
theorem onPacket_inv {o : PktOperand} {f : Packet → Except OpFault Result} {s t : State}
    (h : onPacket o f s = .next t) :
    (∃ p r, packetOf o s = .ok p ∧ f p = .ok r ∧ t = answer r s) ∨
    (∃ p e, packetOf o s = .ok p ∧ f p = .error e ∧ t = raise e s) ∨
    (o = .pkt ∧ s.pktValid = false ∧ t = raise .noPacket s) := by
  unfold onPacket at h
  split at h
  · next e he =>
    obtain ⟨ho, hv, rfl⟩ := packetOf_eq_error he
    exact .inr (.inr ⟨ho, hv, by injection h with h; exact h.symm⟩)
  · next p hp =>
    split at h
    · next e he => exact .inr (.inl ⟨p, e, hp, he, by injection h with h; exact h.symm⟩)
    · next r hr => exact .inl ⟨p, r, hp, hr, by injection h with h; exact h.symm⟩

/-- A pure operation always answers. -/
theorem onPacket_next (o : PktOperand) (f : Packet → Except OpFault Result) (s : State) :
    ∃ t, onPacket o f s = .next t := by
  unfold onPacket
  split
  · exact ⟨_, rfl⟩
  · split <;> exact ⟨_, rfl⟩

/-- PUSH where the bytes fit (40_crc_framing.md R102). -/
theorem pushBytes_fits {bs : List Byte} {s : State}
    (h : fitsCap s.params.rxbufCap (s.rxbuf.length + bs.length) = true) :
    pushBytes bs s = answer .done (appendBytes bs s) := by
  simp [pushBytes, h]

/-- PUSH where they do not (R102). -/
theorem pushBytes_full {bs : List Byte} {s : State}
    (h : fitsCap s.params.rxbufCap (s.rxbuf.length + bs.length) = false) :
    pushBytes bs s = raise (.bufferFull s.rxbuf.length bs.length) s := by
  simp [pushBytes, h]

/-- A data byte that exists is answered. -/
theorem dataByte_ok {p : Packet} {i : Nat} {w : AbsentField} {b : Byte} (h : p.data[i]? = some b) :
    dataByte p i w = .ok b := by
  simp [dataByte, h]

/-- An outcome settles to a next state exactly where the buffer accesses were in range. -/
@[simp] theorem settle_ok (s : State) : settle (.ok s) = .next s := rfl

@[simp] theorem settle_error (e : Fault) : settle (.error e) = .fault e := rfl

theorem settle_eq_next {x : Except Fault State} {t : State} : settle x = .next t ↔ x = .ok t := by
  cases x with
  | ok s => simp [settle]
  | error e => simp [settle]

/-- The sync search finds nothing exactly where no byte is 0x55. -/
theorem syncIndex_eq_none {m : Memory} : syncIndex m = none ↔ Config.sync ∉ m := by
  simp only [syncIndex, List.findIdx?_eq_none_iff, beq_eq_false_iff_ne]
  exact ⟨fun h hm => h _ hm rfl, fun h b hb e => h (e ▸ hb)⟩

/-- The sync search finds the first 0x55 after bytes that hold none. -/
theorem syncIndex_append {g r : List Byte} (h : Config.sync ∉ g) :
    syncIndex (g ++ Config.sync :: r) = some g.length := by
  have hg : g.findIdx? (· == Config.sync) = none := syncIndex_eq_none.mpr h
  rw [syncIndex, List.findIdx?_append, hg]
  simp [List.findIdx?_cons]

/-- Where the sync search answers `k`, the buffer is bytes without 0x55, then a 0x55 at index `k`. -/
theorem syncIndex_eq_some {m : Memory} {k : Nat} (h : syncIndex m = some k) :
    Config.sync ∉ m.take k ∧ m = m.take k ++ Config.sync :: m.drop (k + 1) ∧ k < m.length := by
  unfold syncIndex at h
  rw [List.findIdx?_eq_some_iff_getElem] at h
  obtain ⟨hk, hs, hlt⟩ := h
  have hs' : m[k] = Config.sync := by simpa using hs
  refine ⟨?_, ?_, hk⟩
  · intro hmem
    obtain ⟨j, hj, e⟩ := List.mem_iff_getElem.mp hmem
    have hj' : j < k := by simp at hj; omega
    have := hlt j hj'
    rw [List.getElem_take] at e
    simp [e] at this
  · conv_lhs => rw [← List.take_append_drop k m]
    rw [List.drop_eq_getElem_cons hk, hs']

/-- A next state of `exec` for a command that decodes is `step`'s. -/
theorem step_decoded {s : State} {c : List Byte} {waiting : List (List Byte)} {i : Instr}
    (hc : s.commands = c :: waiting) (hd : decode c = .ok i) :
    step s = exec i { s with commands := waiting } := by
  simp [step, hc, hd]

end Sys2Proof.Machine
end

