-- ==== Sys2Proof/Laws/Fields.lean ====
section
/-! SUPPORT. The telegram tests in the words of the statements, and what reading a telegram's byte can answer. -/

namespace Sys2Proof.Machine

/-- `require_ute` is the test of 42_ute_fields.md R140. -/
theorem isUteTelegram_iff {p : Packet} : isUteTelegram p = true ↔ uteTelegram p := by
  simp [isUteTelegram, uteTelegram, and_assoc]

/-- `require_bs4` is the test of 43_bs4_fields.md R160. -/
theorem isBs4Telegram_iff {p : Packet} : isBs4Telegram p = true ↔ bs4Telegram p := by
  simp [isBs4Telegram, bs4Telegram, and_assoc]

/-- A radio packet is not well formed where its type or its length is wrong (30_encoding.md R63). -/
theorem isRadioTelegram_eq_false {p : Packet} :
    isRadioTelegram p = false ↔ p.ptype ≠ 0x01 ∨ p.data.length < 6 := by
  simp [isRadioTelegram, or_iff_not_imp_left]

/-- Reading a data byte faults only past the end, with the information it was given. -/
theorem dataByte_eq_error {p : Packet} {i : Nat} {w : AbsentField} {e : OpFault} (h : dataByte p i w = .error e) :
    p.data.length ≤ i ∧ e = .fieldAbsent w := by
  unfold dataByte at h
  split at h
  · cases h
  · next hn => exact ⟨by simpa using hn, by cases h; rfl⟩

/-- A byte of a UTE telegram is absent only where the packet is no UTE telegram. -/
theorem uteByte_eq_error {p : Packet} {i : Nat} {e : OpFault} (hi : i < 13) (h : uteByte p i = .error e) :
    ¬ uteTelegram p ∧ e = .fieldAbsent .ute := by
  unfold uteByte at h
  split at h
  · next ht =>
    have hl := (isUteTelegram_iff.mp ht).2.1
    have := (dataByte_eq_error h).1
    omega
  · next ht => exact ⟨fun hu => ht (isUteTelegram_iff.mpr hu), by cases h; rfl⟩

/-- A byte of a BS4 telegram is absent only where the packet is no BS4 telegram. -/
theorem bs4Byte_eq_error {p : Packet} {i : Nat} {e : OpFault} (hi : i < 10) (h : bs4Byte p i = .error e) :
    ¬ bs4Telegram p ∧ e = .fieldAbsent .bs4 := by
  unfold bs4Byte at h
  split at h
  · next ht =>
    have hl := (isBs4Telegram_iff.mp ht).2.1
    have := (dataByte_eq_error h).1
    omega
  · next ht => exact ⟨fun hu => ht (isBs4Telegram_iff.mpr hu), by cases h; rfl⟩

/-- `UTE.RESP` faults with the first test that fails (44_responder.md R171). -/
theorem uteRespOf_eq_error {p : Packet} {la : Address} {e : OpFault} (h : uteRespOf la p = .error e) :
    ∃ r, e = .malformedRequest r ∧ uteRequestFails r p la := by
  unfold uteRespOf at h
  split at h
  · next hu => exact ⟨.ute, by cases h; rfl, fun ht => by simp [isUteTelegram_iff.mpr ht] at hu⟩
  · next hu =>
    split at h
    · next hl => exact ⟨.addr, by cases h; rfl, isUteTelegram_iff.mp (by simpa using hu), hl⟩
    · cases h

/-- `BS4.RESP` faults with the first test that fails (44_responder.md R172). -/
theorem bs4RespOf_eq_error {p : Packet} {la : Address} {e : OpFault} (h : bs4RespOf la p = .error e) :
    ∃ r, e = .malformedRequest r ∧ bs4RequestFails r p la := by
  unfold bs4RespOf at h
  split at h
  · next hu => exact ⟨.bs4, by cases h; rfl, fun ht => by simp [isBs4Telegram_iff.mpr ht] at hu⟩
  · next hu =>
    have ht : bs4Telegram p := isBs4Telegram_iff.mp (by simpa using hu)
    have h4 : p.data[4]? = some (p.data[4]'(by have := ht.2.1; omega)) := by simp
    split at h
    · next hq =>
      refine ⟨.notAQuery, by cases h; rfl, ht, _, h4, ?_⟩
      simpa [queryBit, h4] using hq
    · next hq =>
      split at h
      · next hl =>
        refine ⟨.addr, by cases h; rfl, ht, ⟨_, h4, ?_⟩, hl⟩
        simpa [queryBit, h4] using hq
      · cases h

end Sys2Proof.Machine
end

