-- ==== Sys2Proof/Laws/Framing.lean ====
section
/-! SUPPORT. What `parseCase` answers, once: the shape of the buffer in each of the five cases of 40_crc_framing.md R103,
and what `applyParse`, `parseBuffer` and `decodeBytes` do with them. -/

namespace Sys2Proof.Machine

/-- A byte read right after a prefix. -/
theorem readByte_after (g : List Byte) (b : Byte) (r : List Byte) {a : Nat} (ha : a = g.length) :
    readByte (g ++ b :: r) a = .ok b := by
  subst ha
  exact readByte_eq_ok_iff.mpr (by simp)

/-- A slice read right after a prefix. -/
theorem readMem_after (g x r : List Byte) {a n : Nat} (ha : a = g.length) (hn : n = x.length) :
    readMem (g ++ (x ++ r)) a n = .ok x := by
  subst ha hn
  rw [readMem_ok (by simp)]
  simp

/-- Case A. -/
theorem parseCase_noSync {m : Memory} (h : Config.sync ∉ m) : parseCase m = .ok .noSync := by
  simp only [parseCase, syncIndex_eq_none.mpr h]

/-- Case B. -/
theorem parseCase_shortHeader {g r : List Byte} (hg : Config.sync ∉ g) (hr : r.length < 5) :
    parseCase (g ++ Config.sync :: r) = .ok .shortHeader := by
  simp only [parseCase, syncIndex_append hg]
  rw [if_pos]
  simp only [List.length_append, List.length_cons, Config.hdrLen]
  omega

/-- The header of a frame whose six header bytes are present is read, and its length decides between case C and the
frame. -/
theorem parseCase_header {g rest : List Byte} {hi lo o t hc : Byte} (hg : Config.sync ∉ g) :
    parseCase (g ++ Config.sync :: hi :: lo :: o :: t :: hc :: rest) =
      if rest.length < dataLen hi lo + o.toNat + 1 then .ok .shortFrame
      else parseFrame (g ++ Config.sync :: hi :: lo :: o :: t :: hc :: rest) g.length (dataLen hi lo) o.toNat := by
  have h1 : readByte (g ++ Config.sync :: hi :: lo :: o :: t :: hc :: rest) (g.length + 1) = .ok hi := by
    simpa using readByte_after (g ++ [Config.sync]) hi (lo :: o :: t :: hc :: rest) (a := g.length + 1) (by simp)
  have h2 : readByte (g ++ Config.sync :: hi :: lo :: o :: t :: hc :: rest) (g.length + 2) = .ok lo := by
    simpa using readByte_after (g ++ [Config.sync, hi]) lo (o :: t :: hc :: rest) (a := g.length + 2) (by simp)
  have h3 : readByte (g ++ Config.sync :: hi :: lo :: o :: t :: hc :: rest) (g.length + 3) = .ok o := by
    simpa using readByte_after (g ++ [Config.sync, hi, lo]) o (t :: hc :: rest) (a := g.length + 3) (by simp)
  simp only [parseCase, syncIndex_append hg]
  rw [if_neg (by simp only [List.length_append, List.length_cons, Config.hdrLen]; omega)]
  simp only [h1, h2, h3, bind, Except.bind]
  have hlen : (g ++ Config.sync :: hi :: lo :: o :: t :: hc :: rest).length - g.length = rest.length + 6 := by
    simp only [List.length_append, List.length_cons]
    omega
  rw [hlen]
  by_cases h : rest.length < dataLen hi lo + o.toNat + 1
  · rw [if_pos h, if_pos (by simp only [frameLen, Config.hdrLen]; omega)]
  · rw [if_neg h, if_neg (by simp only [frameLen, Config.hdrLen]; omega)]

/-- Case C. -/
theorem parseCase_shortFrame {g rest : List Byte} {hi lo o t hc : Byte} (hg : Config.sync ∉ g)
    (h : rest.length < dataLen hi lo + o.toNat + 1) :
    parseCase (g ++ Config.sync :: hi :: lo :: o :: t :: hc :: rest) = .ok .shortFrame := by
  rw [parseCase_header hg, if_pos h]

/-- Cases D and E on a present frame. -/
theorem parseFrame_present {g data opt rest : List Byte} {hi lo o t hc dc : Byte} (hd : data.length = dataLen hi lo)
    (ho : opt.length = o.toNat) :
    parseFrame (g ++ Config.sync :: hi :: lo :: o :: t :: hc :: (data ++ (opt ++ dc :: rest))) g.length (dataLen hi lo)
        o.toNat =
      .ok (if crc8 [hi, lo, o, t] = hc ∧ crc8 (data ++ opt) = dc
        then .good ⟨t, data, opt⟩ (g.length + frameLen data.length opt.length)
        else .bad g.length (g.length + frameLen data.length opt.length)) := by
  rw [← hd, ← ho]
  generalize hm : g ++ Config.sync :: hi :: lo :: o :: t :: hc :: (data ++ (opt ++ dc :: rest)) = m
  have h1 : readByte m (g.length + 4) = .ok t := by
    rw [← hm]
    simpa using readByte_after (g ++ [Config.sync, hi, lo, o]) t (hc :: (data ++ (opt ++ dc :: rest)))
      (a := g.length + 4) (by simp)
  have h2 : readMem m (g.length + 1) 4 = .ok [hi, lo, o, t] := by
    rw [← hm]
    simpa using readMem_after (g ++ [Config.sync]) [hi, lo, o, t] (hc :: (data ++ (opt ++ dc :: rest)))
      (a := g.length + 1) (n := 4) (by simp) rfl
  have h3 : readByte m (g.length + 5) = .ok hc := by
    rw [← hm]
    simpa using readByte_after (g ++ [Config.sync, hi, lo, o, t]) hc (data ++ (opt ++ dc :: rest))
      (a := g.length + 5) (by simp)
  have h4 : readMem m (g.length + 6) (data.length + opt.length) = .ok (data ++ opt) := by
    rw [← hm]
    simpa using readMem_after (g ++ [Config.sync, hi, lo, o, t, hc]) (data ++ opt) (dc :: rest)
      (a := g.length + 6) (n := data.length + opt.length) (by simp) (by simp)
  have h5 : readByte m (g.length + frameLen data.length opt.length - 1) = .ok dc := by
    rw [← hm]
    simpa using readByte_after (g ++ [Config.sync, hi, lo, o, t, hc] ++ data ++ opt) dc rest
      (a := g.length + frameLen data.length opt.length - 1)
      (by simp only [List.length_append, List.length_cons, List.length_nil, frameLen, Config.hdrLen]; omega)
  have h6 : readMem m (g.length + 6) data.length = .ok data := by
    rw [← hm]
    simpa using readMem_after (g ++ [Config.sync, hi, lo, o, t, hc]) data (opt ++ dc :: rest)
      (a := g.length + 6) (n := data.length) (by simp) rfl
  have h7 : readMem m (g.length + 6 + data.length) opt.length = .ok opt := by
    rw [← hm]
    simpa using readMem_after (g ++ [Config.sync, hi, lo, o, t, hc] ++ data) opt (dc :: rest)
      (a := g.length + 6 + data.length) (n := opt.length) (by simp; omega) rfl
  simp only [parseFrame, h1, h2, h3, h4, h5, h6, h7, bind, Except.bind, pure, Except.pure]
  split <;> rfl

/-- Cases D and E. -/
theorem parseCase_frame {g data opt rest : List Byte} {hi lo o t hc dc : Byte} (hg : Config.sync ∉ g)
    (hd : data.length = dataLen hi lo) (ho : opt.length = o.toNat) :
    parseCase (g ++ Config.sync :: hi :: lo :: o :: t :: hc :: (data ++ (opt ++ dc :: rest))) =
      .ok (if crc8 [hi, lo, o, t] = hc ∧ crc8 (data ++ opt) = dc
        then .good ⟨t, data, opt⟩ (g.length + frameLen data.length opt.length)
        else .bad g.length (g.length + frameLen data.length opt.length)) := by
  rw [parseCase_header hg, if_neg, parseFrame_present hd ho]
  simp only [List.length_append, List.length_cons]
  omega

/-- Every buffer has one of the five shapes of R103. -/
theorem buffer_shapes (m : Memory) :
    Config.sync ∉ m ∨
    (∃ g r, m = g ++ Config.sync :: r ∧ Config.sync ∉ g ∧ r.length < 5) ∨
    (∃ g hi lo o t hc rest, m = g ++ Config.sync :: hi :: lo :: o :: t :: hc :: rest ∧ Config.sync ∉ g ∧
      rest.length < dataLen hi lo + o.toNat + 1) ∨
    (∃ g hi lo o t hc data opt dc rest, m = g ++ Config.sync :: hi :: lo :: o :: t :: hc :: (data ++ (opt ++ dc :: rest)) ∧
      Config.sync ∉ g ∧ data.length = dataLen hi lo ∧ opt.length = o.toNat) := by
  cases hs : syncIndex m with
  | none => exact .inl (syncIndex_eq_none.mp hs)
  | some k =>
    obtain ⟨hg, hm, -⟩ := syncIndex_eq_some hs
    refine .inr ?_
    generalize m.take k = g at hg hm
    generalize m.drop (k + 1) = r at hm
    match r, hm with
    | [], hm => exact .inl ⟨g, _, hm, hg, by simp⟩
    | [a], hm => exact .inl ⟨g, _, hm, hg, by simp⟩
    | [a, b], hm => exact .inl ⟨g, _, hm, hg, by simp⟩
    | [a, b, c], hm => exact .inl ⟨g, _, hm, hg, by simp⟩
    | [a, b, c, d], hm => exact .inl ⟨g, _, hm, hg, by simp⟩
    | hi :: lo :: o :: t :: hc :: rest, hm =>
      refine .inr ?_
      by_cases h : rest.length < dataLen hi lo + o.toNat + 1
      · exact .inl ⟨g, hi, lo, o, t, hc, rest, hm, hg, h⟩
      · refine .inr ?_
        have h' : dataLen hi lo + o.toNat < rest.length := by omega
        refine ⟨g, hi, lo, o, t, hc, rest.take (dataLen hi lo), (rest.drop (dataLen hi lo)).take o.toNat,
          rest[dataLen hi lo + o.toNat], rest.drop (dataLen hi lo + o.toNat + 1), ?_, hg, ?_, ?_⟩
        · rw [hm, ← List.drop_eq_getElem_cons h', ← List.drop_drop, List.take_append_drop, List.take_append_drop]
        · rw [List.length_take]
          omega
        · rw [List.length_take, List.length_drop]
          omega

/-- `PARSE` in case A. -/
theorem parseBuffer_noSync {s : State} (h : parseCase s.rxbuf = .ok .noSync) :
    parseBuffer s = .ok (answer (.status .incomplete) (setNoPacket .incomplete { s with rxbuf := [] })) := by
  simp [parseBuffer, h, applyParse, bind, Except.bind, consumeBytes, pure, Except.pure]

/-- `PARSE` in cases B and C. -/
theorem parseBuffer_short {s : State} (h : parseCase s.rxbuf = .ok .shortHeader ∨ parseCase s.rxbuf = .ok .shortFrame) :
    parseBuffer s = .ok (answer (.status .incomplete) (setNoPacket .incomplete s)) := by
  rcases h with h | h <;> simp [parseBuffer, h, applyParse, bind, Except.bind, pure, Except.pure]

/-- `PARSE` in case D. -/
theorem parseBuffer_good {s : State} {p : Packet} {k : Nat} (h : parseCase s.rxbuf = .ok (.good p k))
    (hk : k ≤ s.rxbuf.length) :
    parseBuffer s = .ok (answer (.status .ok) (setPacket p { s with rxbuf := s.rxbuf.drop k })) := by
  simp [parseBuffer, h, applyParse, bind, Except.bind, consumeBytes, hk, pure, Except.pure]

/-- `PARSE` in case E. -/
theorem parseBuffer_bad {s : State} {a k : Nat} (h : parseCase s.rxbuf = .ok (.bad a k))
    (hk : discardCount s.params.crcDiscard a k ≤ s.rxbuf.length) :
    parseBuffer s = .ok (answer (.status .crcMismatch)
      (setNoPacket .crcMismatch { s with rxbuf := s.rxbuf.drop (discardCount s.params.crcDiscard a k) })) := by
  simp [parseBuffer, h, applyParse, bind, Except.bind, consumeBytes, hk, pure, Except.pure]

/-- The bytes of a frame, header first, as the parse lemmas write them. -/
theorem frameBytes_eq (f : Frame) : frameBytes f = Config.sync :: lenHigh f.data.length :: lenLow f.data.length ::
    lenLow f.opt.length :: f.ftype :: f.hcrc :: (f.data ++ (f.opt ++ [f.dcrc])) := by
  simp [frameBytes, headerBytes]

/-- Both checksum bytes of a frame are right exactly where they are the computed ones. -/
theorem checksumsRight_iff (f : Frame) : checksumsRight f = true ↔
    crc8 [lenHigh f.data.length, lenLow f.data.length, lenLow f.opt.length, f.ftype] = f.hcrc ∧
      crc8 (f.data ++ f.opt) = f.dcrc := by
  obtain ⟨t, hc, data, opt, dc⟩ := f
  simp only [checksumsRight, beq_iff_eq, frameOf, framePacket, headerBytes, Frame.mk.injEq, true_and]
  exact ⟨fun h => ⟨h.1.symm, h.2.symm⟩, fun h => ⟨h.1.symm, h.2.symm⟩⟩

/-- The frame `ENCODE` builds has right checksums. -/
@[simp] theorem checksumsRight_frameOf (p : Packet) : checksumsRight (frameOf p) = true := by
  simp [checksumsRight, framePacket, frameOf]

end Sys2Proof.Machine
end

