-- ==== Sys2Proof/Laws/PerInstr.lean ====
section
/-! SUPPORT. Families of statements made per instruction (LAWS.json). -/

namespace Sys2Proof.Laws

/-- HeadByte: a command starts with the instruction's select code (30_encoding.md R78), below 0x40, or with the sync byte
(R60): never with another byte. -/
def HeadByte.Statement (i : Instr) : Prop :=
  (encode i).head? = some (headByte i) ∧ (headByte i = Config.sync ∨ (headByte i).extractLsb 7 6 = 0)

theorem HeadByte.reset : HeadByte.Statement (.reset) := ⟨rfl, Or.inr (show (0x00 : Byte).extractLsb 7 6 = 0 by decide)⟩
theorem HeadByte.push (s : List Byte) : HeadByte.Statement (.push s) := ⟨rfl, Or.inr (show (0x01 : Byte).extractLsb 7 6 = 0 by decide)⟩
theorem HeadByte.parse : HeadByte.Statement (.parse) := ⟨rfl, Or.inr (show (0x02 : Byte).extractLsb 7 6 = 0 by decide)⟩
theorem HeadByte.encode (p : PktOperand) : HeadByte.Statement (.encode p) := ⟨rfl, Or.inr (show (0x03 : Byte).extractLsb 7 6 = 0 by decide)⟩
theorem HeadByte.crc8 (s : List Byte) : HeadByte.Statement (.crc8 s) := ⟨rfl, Or.inr (show (0x04 : Byte).extractLsb 7 6 = 0 by decide)⟩
theorem HeadByte.classify (p : PktOperand) : HeadByte.Statement (.classify p) := ⟨rfl, Or.inr (show (0x05 : Byte).extractLsb 7 6 = 0 by decide)⟩
theorem HeadByte.radioRorg (p : PktOperand) : HeadByte.Statement (.radioRorg p) := ⟨rfl, Or.inr (show (0x08 : Byte).extractLsb 7 6 = 0 by decide)⟩
theorem HeadByte.radioSender (p : PktOperand) : HeadByte.Statement (.radioSender p) := ⟨rfl, Or.inr (show (0x09 : Byte).extractLsb 7 6 = 0 by decide)⟩
theorem HeadByte.radioDest (p : PktOperand) : HeadByte.Statement (.radioDest p) := ⟨rfl, Or.inr (show (0x0A : Byte).extractLsb 7 6 = 0 by decide)⟩
theorem HeadByte.radioStatus (p : PktOperand) : HeadByte.Statement (.radioStatus p) := ⟨rfl, Or.inr (show (0x0B : Byte).extractLsb 7 6 = 0 by decide)⟩
theorem HeadByte.uteBidir (p : PktOperand) : HeadByte.Statement (.uteBidir p) := ⟨rfl, Or.inr (show (0x10 : Byte).extractLsb 7 6 = 0 by decide)⟩
theorem HeadByte.uteRespexp (p : PktOperand) : HeadByte.Statement (.uteRespexp p) := ⟨rfl, Or.inr (show (0x11 : Byte).extractLsb 7 6 = 0 by decide)⟩
theorem HeadByte.uteReqtype (p : PktOperand) : HeadByte.Statement (.uteReqtype p) := ⟨rfl, Or.inr (show (0x12 : Byte).extractLsb 7 6 = 0 by decide)⟩
theorem HeadByte.uteFlags (p : PktOperand) : HeadByte.Statement (.uteFlags p) := ⟨rfl, Or.inr (show (0x13 : Byte).extractLsb 7 6 = 0 by decide)⟩
theorem HeadByte.uteTeachin (p : PktOperand) : HeadByte.Statement (.uteTeachin p) := ⟨rfl, Or.inr (show (0x14 : Byte).extractLsb 7 6 = 0 by decide)⟩
theorem HeadByte.uteDelete (p : PktOperand) : HeadByte.Statement (.uteDelete p) := ⟨rfl, Or.inr (show (0x15 : Byte).extractLsb 7 6 = 0 by decide)⟩
theorem HeadByte.uteNchan (p : PktOperand) : HeadByte.Statement (.uteNchan p) := ⟨rfl, Or.inr (show (0x16 : Byte).extractLsb 7 6 = 0 by decide)⟩
theorem HeadByte.uteManuf (p : PktOperand) : HeadByte.Statement (.uteManuf p) := ⟨rfl, Or.inr (show (0x17 : Byte).extractLsb 7 6 = 0 by decide)⟩
theorem HeadByte.uteEeprorg (p : PktOperand) : HeadByte.Statement (.uteEeprorg p) := ⟨rfl, Or.inr (show (0x18 : Byte).extractLsb 7 6 = 0 by decide)⟩
theorem HeadByte.uteFunc (p : PktOperand) : HeadByte.Statement (.uteFunc p) := ⟨rfl, Or.inr (show (0x19 : Byte).extractLsb 7 6 = 0 by decide)⟩
theorem HeadByte.uteType (p : PktOperand) : HeadByte.Statement (.uteType p) := ⟨rfl, Or.inr (show (0x1A : Byte).extractLsb 7 6 = 0 by decide)⟩
theorem HeadByte.uteCeep (p : PktOperand) : HeadByte.Statement (.uteCeep p) := ⟨rfl, Or.inr (show (0x1B : Byte).extractLsb 7 6 = 0 by decide)⟩
theorem HeadByte.bs4Learn (p : PktOperand) : HeadByte.Statement (.bs4Learn p) := ⟨rfl, Or.inr (show (0x20 : Byte).extractLsb 7 6 = 0 by decide)⟩
theorem HeadByte.bs4Func (p : PktOperand) : HeadByte.Statement (.bs4Func p) := ⟨rfl, Or.inr (show (0x21 : Byte).extractLsb 7 6 = 0 by decide)⟩
theorem HeadByte.bs4Type (p : PktOperand) : HeadByte.Statement (.bs4Type p) := ⟨rfl, Or.inr (show (0x22 : Byte).extractLsb 7 6 = 0 by decide)⟩
theorem HeadByte.bs4Manuf (p : PktOperand) : HeadByte.Statement (.bs4Manuf p) := ⟨rfl, Or.inr (show (0x23 : Byte).extractLsb 7 6 = 0 by decide)⟩
theorem HeadByte.bs4Ceep (p : PktOperand) : HeadByte.Statement (.bs4Ceep p) := ⟨rfl, Or.inr (show (0x24 : Byte).extractLsb 7 6 = 0 by decide)⟩
theorem HeadByte.uteResp (p : PktOperand) (la : Address) : HeadByte.Statement (.uteResp p la) := ⟨rfl, Or.inr (show (0x28 : Byte).extractLsb 7 6 = 0 by decide)⟩
theorem HeadByte.bs4Resp (p : PktOperand) (la : Address) : HeadByte.Statement (.bs4Resp p la) := ⟨rfl, Or.inr (show (0x29 : Byte).extractLsb 7 6 = 0 by decide)⟩
theorem HeadByte.respond (p : PktOperand) (en : Bool) (la : Address) : HeadByte.Statement (.respond p en la) := ⟨rfl, Or.inr (show (0x2A : Byte).extractLsb 7 6 = 0 by decide)⟩
theorem HeadByte.frameEsp3 (f : Frame) : HeadByte.Statement (.frameEsp3 f) := ⟨rfl, Or.inl rfl⟩
theorem HeadByte.variantGeneric (p : Packet) : HeadByte.Statement (.variantGeneric p) := ⟨rfl, Or.inl rfl⟩
theorem HeadByte.variantUteTeachIn (p : Packet) : HeadByte.Statement (.variantUteTeachIn p) := ⟨rfl, Or.inl rfl⟩
theorem HeadByte.variantBs4TeachIn (p : Packet) : HeadByte.Statement (.variantBs4TeachIn p) := ⟨rfl, Or.inl rfl⟩
theorem HeadByte.variantRadio (p : Packet) : HeadByte.Statement (.variantRadio p) := ⟨rfl, Or.inl rfl⟩

end Sys2Proof.Laws
end

