-- ==== Sys2Proof/Tests/Slice0.lean ====
section
/-! SUPPORT. Small tests. Expected values are the spec's own (95_test_vectors.md and the examples of the rules); the
source of each group stands in its comment. The last part gives a state and operands that meet each statement's
hypotheses. -/

namespace Sys2Proof.Tests

open Sys2Proof.Machine

/-! ## Helpers -/

/-- The packet of 95_test_vectors.md S1. -/
def uteRequest : Packet :=
  ⟨0x01, [0xD4, 0xA0, 0xFF, 0x3E, 0x00, 0x01, 0x01, 0xD2, 0x01, 0x94, 0xE3, 0xB9, 0x00],
    [0x01, 0xFF, 0xFF, 0xFF, 0xFF, 0x40, 0x00]⟩

/-- The packet of S2. -/
def bs4Request : Packet :=
  ⟨0x01, [0xA5, 0x04, 0x0C, 0x3E, 0xE0, 0x01, 0x94, 0xE3, 0xB9, 0x00], [0x01, 0xFF, 0xFF, 0xFF, 0xFF, 0x40, 0x00]⟩

/-- The frame of S2. -/
def bs4Bytes : List Byte :=
  [0x55, 0x00, 0x0A, 0x07, 0x01, 0xEB, 0xA5, 0x04, 0x0C, 0x3E, 0xE0, 0x01, 0x94, 0xE3, 0xB9, 0x00, 0x01, 0xFF, 0xFF,
   0xFF, 0xFF, 0x40, 0x00, 0x54]

/-- §8's local address. -/
def localAddress : Address := [0xDE, 0xAD, 0xBE, 0xEF]

/-- The reset state with these bytes in RXBUF. -/
def withBytes (bs : List Byte) : State := { State.reset with rxbuf := bs }

/-- The same with SYNC_ONLY. -/
def withBytesSyncOnly (bs : List Byte) : State :=
  { State.reset with rxbuf := bs, params := { defaultParams with crcDiscard := .syncOnly } }

/-- The same with RXBUF_CAP = `cap`. -/
def withCap (cap : Nat) (bs : List Byte) : State :=
  { State.reset with rxbuf := bs, params := { defaultParams with rxbufCap := some cap } }

/-- A state whose result registers hold the packet of S2. -/
def holdingBs4 : State := setPacket bs4Request State.reset

def answers (o : Host.Outcome State Fault Refusal) : Bool :=
  match o with
  | .next _ => true
  | _ => false

def stateOf (o : Host.Outcome State Fault Refusal) : State :=
  match o with
  | .next t => t
  | _ => State.reset

def replyOf (o : Host.Outcome State Fault Refusal) : Reply := (stateOf o).reply

/-- An outcome that answers is the next state it answers. -/
theorem eq_next {o : Host.Outcome State Fault Refusal} (h : answers o = true) : o = .next (stateOf o) := by
  cases o <;> first | rfl | cases h

/-- The result an operation hands over on a packet value. -/
def onValue (op : PktOperand → Instr) (p : Packet) : Reply := replyOf (exec (op (.value p)) State.reset)

/-! ## WellFormed refuses each ill-formed frame instruction -/

theorem test_wf_refuses_long_data : (Instr.variantGeneric ⟨0x05, List.replicate 65536 0, []⟩).wf = false := by
  have h : lengthsFit ⟨0x05, List.replicate 65536 0, []⟩ = false := by
    simp only [lengthsFit, List.length_replicate]
    decide
  simp only [Instr.wf, variantAdmits, h, Bool.false_and]
theorem test_wf_refuses_long_opt : (Instr.variantGeneric ⟨0x05, [], List.replicate 256 0⟩).wf = false := by
  decide +kernel
theorem test_wf_refuses_generic_of_type_1 : (Instr.variantGeneric ⟨0x01, [], []⟩).wf = false := by decide
theorem test_wf_refuses_ute_of_bs4 : (Instr.variantUteTeachIn bs4Request).wf = false := by decide
theorem test_wf_refuses_bs4_of_ute : (Instr.variantBs4TeachIn uteRequest).wf = false := by decide
theorem test_wf_refuses_radio_of_ute : (Instr.variantRadio uteRequest).wf = false := by decide
theorem test_wf_refuses_raw_right_checksums : (Instr.frameEsp3 ⟨0x05, 0x1B, [], [], 0x00⟩).wf = false := by decide +kernel
theorem test_wf_refuses_raw_long_opt : (Instr.frameEsp3 ⟨0x05, 0x1B, [], List.replicate 256 0, 0x00⟩).wf = false := by
  decide +kernel
theorem test_wf_admits_raw_wrong_checksum : (Instr.frameEsp3 ⟨0x05, 0x1C, [], [], 0x00⟩).wf = true := by decide +kernel

/-! ## Decoding: one word for each constructor, OP codes from 30_encoding.md R78, frames from 95_test_vectors.md -/

theorem test_decode_reset : decode [0x00] = .ok .reset := by decide
theorem test_decode_push : decode [0x01, 0x01, 0x55, 0x01, 0x07, 0x00] = .ok (.push [0x55, 0x07]) := by decide
theorem test_decode_parse : decode [0x02] = .ok .parse := by decide
theorem test_decode_encode : decode [0x03, 0x00, 0x05, 0x01, 0x08, 0x00, 0x00] = .ok (.encode (.value ⟨0x05, [0x08], []⟩)) := by decide
theorem test_decode_crc8 : decode [0x04, 0x01, 0xD4, 0x00] = .ok (.crc8 [0xD4]) := by decide
theorem test_decode_classify : decode [0x05, 0x01] = .ok (.classify .pkt) := by decide
theorem test_decode_radioRorg : decode [0x08, 0x01] = .ok (.radioRorg .pkt) := by decide
theorem test_decode_radioSender : decode [0x09, 0x01] = .ok (.radioSender .pkt) := by decide
theorem test_decode_radioDest : decode [0x0A, 0x00, 0x01, 0x00, 0x01, 0x09, 0x00] = .ok (.radioDest (.value ⟨0x01, [], [0x09]⟩)) := by decide
theorem test_decode_radioStatus : decode [0x0B, 0x01] = .ok (.radioStatus .pkt) := by decide
theorem test_decode_uteBidir : decode [0x10, 0x01] = .ok (.uteBidir .pkt) := by decide
theorem test_decode_uteRespexp : decode [0x11, 0x01] = .ok (.uteRespexp .pkt) := by decide
theorem test_decode_uteReqtype : decode [0x12, 0x01] = .ok (.uteReqtype .pkt) := by decide
theorem test_decode_uteFlags : decode [0x13, 0x01] = .ok (.uteFlags .pkt) := by decide
theorem test_decode_uteTeachin : decode [0x14, 0x01] = .ok (.uteTeachin .pkt) := by decide
theorem test_decode_uteDelete : decode [0x15, 0x01] = .ok (.uteDelete .pkt) := by decide
theorem test_decode_uteNchan : decode [0x16, 0x01] = .ok (.uteNchan .pkt) := by decide
theorem test_decode_uteManuf : decode [0x17, 0x01] = .ok (.uteManuf .pkt) := by decide
theorem test_decode_uteEeprorg : decode [0x18, 0x01] = .ok (.uteEeprorg .pkt) := by decide
theorem test_decode_uteFunc : decode [0x19, 0x01] = .ok (.uteFunc .pkt) := by decide
theorem test_decode_uteType : decode [0x1A, 0x01] = .ok (.uteType .pkt) := by decide
theorem test_decode_uteCeep : decode [0x1B, 0x01] = .ok (.uteCeep .pkt) := by decide
theorem test_decode_bs4Learn : decode [0x20, 0x01] = .ok (.bs4Learn .pkt) := by decide
theorem test_decode_bs4Func : decode [0x21, 0x01] = .ok (.bs4Func .pkt) := by decide
theorem test_decode_bs4Type : decode [0x22, 0x01] = .ok (.bs4Type .pkt) := by decide
theorem test_decode_bs4Manuf : decode [0x23, 0x01] = .ok (.bs4Manuf .pkt) := by decide
theorem test_decode_bs4Ceep : decode [0x24, 0x01] = .ok (.bs4Ceep .pkt) := by decide
theorem test_decode_uteResp : decode [0x28, 0x01, 0x01, 0xDE, 0x01, 0xAD, 0x00] = .ok (.uteResp .pkt [0xDE, 0xAD]) := by decide
theorem test_decode_bs4Resp : decode [0x29, 0x01, 0x00] = .ok (.bs4Resp .pkt []) := by decide
theorem test_decode_respond : decode [0x2A, 0x01, 0x01, 0x01, 0x07, 0x00] = .ok (.respond .pkt true [0x07]) := by decide
/-- A10: the header checksum of E1 wrong. -/
theorem test_decode_frameEsp3 : decode [0x55, 0x00, 0x00, 0x00, 0x05, 0x1C, 0x00] = .ok (.frameEsp3 ⟨0x05, 0x1C, [], [], 0x00⟩) := by
  decide +kernel
/-- E3. -/
theorem test_decode_variantGeneric : decode [0x55, 0x00, 0x01, 0x00, 0x05, 0x70, 0x08, 0x38] = .ok (.variantGeneric ⟨0x05, [0x08], []⟩) := by
  decide +kernel
/-- E9. -/
theorem test_decode_variantUteTeachIn : decode [0x55, 0x00, 0x01, 0x00, 0x01, 0x6C, 0xD4, 0x22] = .ok (.variantUteTeachIn ⟨0x01, [0xD4], []⟩) := by
  decide +kernel
/-- S2. -/
theorem test_decode_variantBs4TeachIn : decode bs4Bytes = .ok (.variantBs4TeachIn bs4Request) := by decide +kernel
/-- E10. -/
theorem test_decode_variantRadio : decode [0x55, 0x00, 0x01, 0x01, 0x01, 0x79, 0x55, 0x55, 0xE1] = .ok (.variantRadio ⟨0x01, [0x55], [0x55]⟩) := by
  decide +kernel
/-- U15. -/
theorem test_decode_illegal : decode [0x06] = .error (.illegalOp 0x06) ∧ decode [0x3F, 0x01] = .error (.illegalOp 0x3F) := by decide
theorem test_decode_malformed : decode [0x40] = .error (.malformed (.firstByte 0x40)) ∧
    decode [0x05, 0x02] = .error (.malformed .operand) ∧ decode [0x02, 0x01] = .error (.malformed .trailing) := by decide
theorem test_table_word : decodeTableWord 8 0x2A = some (.respond (.value ⟨0, [], []⟩) false []) := by decide

/-! ## The operations: 95_test_vectors.md -/

/-- 2.10 first row. -/
theorem test_reset : (stateOf (exec .reset { holdingBs4 with rxbuf := [0x55, 0x00, 0x0A] })).rxbuf = [] ∧
    (stateOf (exec .reset holdingBs4)).status = .incomplete ∧ (stateOf (exec .reset holdingBs4)).pktValid = false := by decide
/-- 2.3. -/
theorem test_push : (stateOf (exec (.push [0x0A, 0x07]) (withBytes [0x55, 0x00]))).rxbuf = [0x55, 0x00, 0x0A, 0x07] := by decide
theorem test_push_full : replyOf (exec (.push [0x01, 0x02]) (withCap 4 [0, 0, 0])) = .fault (.bufferFull 3 2) := by decide
/-- 2.4 A8. -/
theorem test_parse_ok : (stateOf (exec .parse (withBytes [0x00, 0xAA, 0x55, 0x00, 0x00, 0x00, 0x05, 0x1B, 0x00, 0x77]))).rxbuf = [0x77] ∧
    holdsPacket (stateOf (exec .parse (withBytes [0x00, 0xAA, 0x55, 0x00, 0x00, 0x00, 0x05, 0x1B, 0x00, 0x77]))) ⟨0x05, [], []⟩ := by
  unfold holdsPacket
  decide +kernel
/-- 2.4 A14, both settings. -/
theorem test_parse_mismatch :
    (stateOf (exec .parse (withBytes [0xAA, 0x55, 0x00, 0x01, 0x00, 0x05, 0x8F, 0x08, 0x38, 0x77]))).rxbuf = [0x77] ∧
    (stateOf (exec .parse (withBytesSyncOnly [0xAA, 0x55, 0x00, 0x01, 0x00, 0x05, 0x8F, 0x08, 0x38, 0x77]))).rxbuf =
      [0x00, 0x01, 0x00, 0x05, 0x8F, 0x08, 0x38, 0x77] := by decide +kernel
/-- 2.2 E4. -/
theorem test_encode : onValue .encode ⟨0x02, [0x00, 0xFF, 0x80, 0x00, 0x00], [0x0A]⟩ = .result (.frame
    [0x55, 0x00, 0x05, 0x01, 0x02, 0xDB, 0x00, 0xFF, 0x80, 0x00, 0x00, 0x0A, 0x3E]) := by decide +kernel
/-- 2.1, the customary check input. -/
theorem test_crc8 : replyOf (exec (.crc8 [0x31, 0x32, 0x33, 0x34, 0x35, 0x36, 0x37, 0x38, 0x39]) State.reset) = .result (.byte 0xF4) := by
  decide +kernel
/-- 2.5. -/
theorem test_classify : onValue .classify bs4Request = .result (.tag .bs4TeachIn) ∧
    onValue .classify ⟨0x01, [0xA5, 0x04, 0x0C, 0x3E, 0xE8], []⟩ = .result (.tag .radio) := by decide
theorem test_classify_no_packet : replyOf (exec (.classify .pkt) State.reset) = .fault .noPacket := by decide
/-- 2.6. -/
theorem test_radioRorg : onValue .radioRorg uteRequest = .result (.byte 0xD4) ∧
    onValue .radioRorg ⟨0x01, [], []⟩ = .fault (.fieldAbsent .rorg) := by decide
theorem test_radioSender : onValue .radioSender ⟨0x01, [0xF6, 0x01, 0x02, 0x03, 0x04, 0x30], []⟩ = .result (.address [0x01, 0x02, 0x03, 0x04]) ∧
    onValue .radioSender ⟨0x01, [0xF6, 0x50, 0x00, 0x29, 0x4D], []⟩ = .fault (.fieldAbsent .sender) := by decide
theorem test_radioDest : onValue .radioDest ⟨0x01, [], [0x01, 0x02, 0x03, 0x04]⟩ = .result (.address [0xFF, 0xFF, 0xFF, 0xFF]) ∧
    onValue .radioDest ⟨0x01, [], [0x01, 0x02, 0x03, 0x04, 0x05]⟩ = .result (.address [0x02, 0x03, 0x04, 0x05]) := by decide
theorem test_radioStatus : onValue .radioStatus ⟨0x01, [0xF6, 0x50, 0x00, 0x29, 0x4D, 0x7B, 0x30], []⟩ = .result (.byte 0x30) := by decide
/-- 2.7: DB6 = E0, 90 and 2F. -/
theorem test_uteBidir : onValue .uteBidir { uteRequest with data := uteRequest.data.set 1 0x40 } = .result (.bit 0) := by decide
theorem test_uteRespexp : onValue .uteRespexp { uteRequest with data := uteRequest.data.set 1 0xE0 } = .result (.bit 0) := by decide
theorem test_uteReqtype : onValue .uteReqtype { uteRequest with data := uteRequest.data.set 1 0x90 } = .result (.bits2 0b01) := by decide
theorem test_uteFlags : onValue .uteFlags { uteRequest with data := uteRequest.data.set 1 0x2F } = .result (.bits4 0b1111) := by decide
theorem test_uteTeachin : onValue .uteTeachin uteRequest = .result (.bit 1) ∧
    onValue .uteTeachin { uteRequest with data := uteRequest.data.set 1 0x90 } = .result (.bit 0) := by decide
theorem test_uteDelete : onValue .uteDelete uteRequest = .result (.bit 0) ∧
    onValue .uteDelete { uteRequest with data := uteRequest.data.set 1 0x90 } = .result (.bit 1) := by decide
theorem test_uteNchan : onValue .uteNchan uteRequest = .result (.byte 0xFF) ∧ onValue .uteNchan bs4Request = .fault (.fieldAbsent .ute) := by decide
theorem test_uteManuf : onValue .uteManuf { uteRequest with data := (uteRequest.data.set 3 0x46).set 4 0xFF } = .result (.bits11 0x746) := by decide
theorem test_uteEeprorg : onValue .uteEeprorg uteRequest = .result (.byte 0xD2) := by decide
theorem test_uteFunc : onValue .uteFunc { uteRequest with data := (uteRequest.data.set 5 0x0B).set 6 0x05 } = .result (.byte 0x05) := by decide
theorem test_uteType : onValue .uteType { uteRequest with data := (uteRequest.data.set 5 0x0B).set 6 0x05 } = .result (.byte 0x0B) := by decide
theorem test_uteCeep : onValue .uteCeep uteRequest = .result (.bit 1) ∧ onValue .uteCeep ⟨0x01, [0xD4], []⟩ = .fault (.fieldAbsent .ute) := by decide
/-- 2.8: rows E8, `FC 00 00 00`, `03 F8 00 00`, `04 0C 3E`, and 60. -/
theorem test_bs4Learn : onValue .bs4Learn bs4Request = .result (.bit 1) ∧
    onValue .bs4Learn { bs4Request with data := bs4Request.data.set 4 0x08 } = .result (.bit 0) := by decide
theorem test_bs4Func : onValue .bs4Func { bs4Request with data := bs4Request.data.set 1 0xFC } = .result (.bits6 0x3F) := by decide
theorem test_bs4Type : onValue .bs4Type { bs4Request with data := (bs4Request.data.set 1 0x03).set 2 0xF8 } = .result (.bits7 0x7F) := by decide
theorem test_bs4Manuf : onValue .bs4Manuf bs4Request = .result (.bits11 0x43E) := by decide
theorem test_bs4Ceep : onValue .bs4Ceep { bs4Request with data := bs4Request.data.set 4 0x60 } = .result (.bit 0) ∧
    onValue .bs4Ceep uteRequest = .fault (.fieldAbsent .bs4) := by decide
/-- 2.9. -/
theorem test_uteResp : onValue (.uteResp · localAddress) uteRequest = .result (.packet
    ⟨0x01, [0xD4, 0x91, 0xFF, 0x3E, 0x00, 0x01, 0x01, 0xD2, 0xDE, 0xAD, 0xBE, 0xEF, 0x00], [0x03, 0x01, 0x94, 0xE3, 0xB9, 0xFF, 0x00]⟩) := by decide
theorem test_uteResp_bad_address : onValue (.uteResp · [0xDE, 0xAD, 0xBE]) uteRequest = .fault (.malformedRequest .addr) := by decide
theorem test_bs4Resp : onValue (.bs4Resp · localAddress) bs4Request = .result (.packet
    ⟨0x01, [0xA5, 0x04, 0x0C, 0x3E, 0xF0, 0xDE, 0xAD, 0xBE, 0xEF, 0x00], [0x03, 0x01, 0x94, 0xE3, 0xB9, 0xFF, 0x00]⟩) := by decide
theorem test_bs4Resp_not_a_query : onValue (.bs4Resp · localAddress) { bs4Request with data := bs4Request.data.set 4 0xE8 } =
    .fault (.malformedRequest .notAQuery) := by decide
theorem test_respond : replyOf (exec (.respond .pkt true localAddress) holdingBs4) = onValue (.bs4Resp · localAddress) bs4Request := by decide
theorem test_respond_none : onValue (.respond · false localAddress) uteRequest = .result .absent ∧
    onValue (.respond · true localAddress) ⟨0x01, [0xD4], []⟩ = .result .absent := by decide
/-- A10 and E8, as frames on a fresh buffer. -/
theorem test_frameEsp3 : replyOf (exec (.frameEsp3 ⟨0x05, 0x1C, [], [], 0x00⟩) (withBytes [0x55])) = .result (.status .crcMismatch) := by
  decide +kernel
theorem test_variantGeneric : (stateOf (exec (.variantGeneric ⟨0x05, [0x08], []⟩) (withBytes [0x55]))).pktTag = .generic := by decide +kernel
theorem test_variantUteTeachIn : (stateOf (exec (.variantUteTeachIn ⟨0x01, [0xD4], []⟩) State.reset)).pktTag = .uteTeachIn := by decide +kernel
theorem test_variantBs4TeachIn : (stateOf (exec (.variantBs4TeachIn bs4Request) State.reset)).pktTag = .bs4TeachIn := by decide +kernel
theorem test_variantRadio : (stateOf (exec (.variantRadio ⟨0x01, [], []⟩) State.reset)).pktTag = .radio := by decide +kernel

/-! ## The step -/

theorem test_step_illegal : step { State.reset with commands := [[0x06], [0x02]] } =
    .next { State.reset with reply := .fault (.illegalOp 0x06), commands := [[0x02]] } := rfl
theorem test_step_malformed : step { State.reset with commands := [[0x41]] } = .refused (.malformedCommand (.firstByte 0x41)) := rfl
theorem test_fetch_word : replyOf (step (State.reset.withFetchWord 8 0x04)) = .result (.byte 0x00) := by decide +kernel

/-! ## Witnesses: the hypotheses of each statement are met -/

theorem witness_DecodeOfEncode : (Instr.frameEsp3 ⟨0x05, 0x1C, [], [], 0x00⟩).wf = true ∧
    (Instr.variantGeneric ⟨0x05, [], []⟩).wf = true ∧ (Instr.variantUteTeachIn uteRequest).wf = true ∧
    (Instr.variantBs4TeachIn bs4Request).wf = true ∧ (Instr.variantRadio ⟨0x01, [], []⟩).wf = true := by decide +kernel
theorem witness_DecodedInstructionIsWellFormed : ∃ c i, decode c = .ok i := ⟨_, _, test_decode_frameEsp3⟩
theorem witness_UnlistedCodes : unlistedCode (0x06 : BitVec 6).toNat ∧ unlistedCode (0x0F : BitVec 6).toNat ∧
    unlistedCode (0x3F : BitVec 6).toNat ∧ ¬ unlistedCode (0x05 : BitVec 6).toNat ∧ ¬ unlistedCode (0x2A : BitVec 6).toNat ∧
    ({ State.reset with commands := [[0x06]] } : State).commands = ((0x06 : BitVec 6).setWidth 8 :: []) :: [] := by
  unfold unlistedCode
  decide
theorem witness_StepRuns : ({ State.reset with commands := [[0x02]] } : State).commands = [0x02] :: [] ∧ decode [0x02] = .ok .parse ∧
    State.reset.commands = [] := by decide
theorem witness_EveryStepKeepsTheInvariant : Inv holdingBs4 ∧ ∃ t, step holdingBs4 = .next t :=
  ⟨⟨by decide, by decide, by decide, by decide, by decide⟩, holdingBs4, rfl⟩
theorem witness_OnlyTheNamedOperationsWrite : ∃ t, exec (.crc8 []) State.reset = .next t ∧ writesBuffer (.crc8 []) = false ∧
    writesResults (.crc8 []) = false ∧ writesResults (.push []) = false := ⟨_, rfl, rfl, rfl, rfl⟩
theorem witness_FaultsLeaveNoTrace : ∃ t, exec (.classify .pkt) State.reset = .next t ∧ t.reply = .fault .noPacket := ⟨_, rfl, rfl⟩
theorem witness_FaultsLeaveNoTrace_decoder : ({ State.reset with commands := [[0x06]] } : State).commands = [0x06] :: [] ∧
    decode [0x06] = .error (.illegalOp 0x06) := by decide
theorem witness_EarlierPackets : holdingBs4.rxbuf = State.reset.rxbuf ∧ holdingBs4.params = State.reset.params ∧
    holdingBs4.commands = State.reset.commands ∧ holdingBs4.freeCount = State.reset.freeCount ∧ holdingBs4.status ≠ State.reset.status := by
  decide
theorem witness_FaultCauses_bufferFull : ∃ t, exec (.push [0x01, 0x02]) (withCap 4 [0, 0, 0]) = .next t ∧ t.reply = .fault (.bufferFull 3 2) :=
  ⟨_, eq_next (by decide), test_push_full⟩
theorem witness_FaultCauses_invalidPacket : ∃ t, exec (.encode (.value ⟨0x01, [], List.replicate 256 0⟩)) State.reset = .next t ∧
    t.reply = .fault (.invalidPacket 0 256) := ⟨_, eq_next (by decide +kernel), by decide +kernel⟩
theorem witness_FaultCauses_requestOrder :
    replyOf (exec (.bs4Resp (.value ⟨0x01, [0xA5, 0, 0, 0, 0x08, 1, 2, 3, 4, 0], []⟩) []) State.reset) =
      .fault (.malformedRequest .notAQuery) ∧
    replyOf (exec (.bs4Resp (.value bs4Request) []) State.reset) = .fault (.malformedRequest .addr) ∧
    replyOf (exec (.radioDest (.value ⟨0x05, [], []⟩)) State.reset) = .fault (.fieldAbsent .dest) := by decide
theorem witness_FaultCauses_others : replyOf (exec (.uteNchan (.value bs4Request)) State.reset) = .fault (.fieldAbsent .ute) ∧
    replyOf (exec (.uteResp (.value bs4Request) localAddress) State.reset) = .fault (.malformedRequest .ute) ∧
    replyOf (exec (.encode .pkt) State.reset) = .fault .noPacket := by decide
theorem witness_CrcIsLinear : ([0x12, 0x34, 0x56] : List Byte).length = ([0x0F, 0xF0, 0xAA] : List Byte).length := rfl
theorem witness_CrcDetectsOddBitErrors : bitsDiffering [0x12, 0x34] [0x12, 0x35] % 2 = 1 ∧ bitsDiffering [0xFF] [0x00] % 2 = 0 := by decide
theorem witness_Push_fits : ∀ cap, (withCap 4 [0, 0, 0]).params.rxbufCap = some cap → (withCap 4 [0, 0, 0]).rxbuf.length + 1 + 0 ≤ cap := by
  intro cap h
  cases h
  decide
theorem witness_Push_full : (withCap 4 [0, 0, 0]).params.rxbufCap = some 4 ∧ 4 < (withCap 4 [0, 0, 0]).rxbuf.length + 2 := by decide
theorem witness_Parse_A : 0x55 ∉ (withBytes [0x01, 0x02, 0x03]).rxbuf ∧ 0x55 ∉ (withBytes []).rxbuf := by decide
theorem witness_Parse_B : (withBytes [0x09, 0x55, 0x00, 0x00, 0x00, 0x05]).rxbuf = [0x09] ++ 0x55 :: [0x00, 0x00, 0x00, 0x05] ∧
    0x55 ∉ ([0x09] : List Byte) ∧ ([0x00, 0x00, 0x00, 0x05] : List Byte).length < 5 := by decide
theorem witness_Parse_C : (withBytes [0x55, 0x00, 0x01, 0x00, 0x05, 0x8F, 0x08]).rxbuf = [] ++ [0x55, 0x00, 0x01, 0x00, 0x05, 0x8F] ++ [0x08] ∧
    ([0x08] : List Byte).length < (0x00 : Byte).toNat * 256 + (0x01 : Byte).toNat + (0x00 : Byte).toNat + 1 := by decide
theorem witness_Parse_D : (withBytes [0xAA, 0x55, 0x00, 0x01, 0x00, 0x05, 0x70, 0x08, 0x38, 0x77]).rxbuf =
      [0xAA] ++ [0x55, 0x00, 0x01, 0x00, 0x05, 0x70] ++ [0x08] ++ [] ++ [0x38] ++ [0x77] ∧ 0x55 ∉ ([0xAA] : List Byte) ∧
    crc8 [0x00, 0x01, 0x00, 0x05] = 0x70 ∧ crc8 ([0x08] ++ []) = 0x38 := by decide +kernel
theorem witness_Parse_E : (withBytesSyncOnly [0x55, 0x00, 0x01, 0x00, 0x05, 0x70, 0x08, 0xB8]).rxbuf =
      [] ++ [0x55, 0x00, 0x01, 0x00, 0x05, 0x70] ++ [0x08] ++ [] ++ [0xB8] ++ [] ∧
    (withBytesSyncOnly []).params.crcDiscard = .syncOnly ∧ (withBytes []).params.crcDiscard = .wholeFrame ∧
    ¬ (crc8 [0x00, 0x01, 0x00, 0x05] = 0x70 ∧ crc8 ([0x08] ++ []) = 0xB8) := by decide +kernel
theorem witness_IncompleteParse : ∃ t, exec .parse (withBytes [0x55, 0x00]) = .next t ∧ t.status = .incomplete ∧
    0x55 ∈ (withBytes [0x55, 0x00]).rxbuf := ⟨_, eq_next (by decide +kernel), by decide +kernel, by decide⟩
theorem witness_ParseProgress : ∃ t, exec .parse (withBytesSyncOnly [0x55, 0x00, 0x00, 0x00, 0x05, 0x1C, 0x00]) = .next t ∧
    t.status ≠ .incomplete := ⟨_, eq_next (by decide +kernel), by decide +kernel⟩
theorem witness_ParseOk : ∃ t, exec .parse (withBytes bs4Bytes) = .next t ∧ t.status = .ok :=
  ⟨_, eq_next (by decide +kernel), by decide +kernel⟩
theorem witness_Encode : packetOf .pkt holdingBs4 = .ok bs4Request ∧ bs4Request.data.length ≤ 65535 ∧ bs4Request.opt.length ≤ 255 ∧
    packetOf (.value ⟨0x01, [], List.replicate 256 0⟩) holdingBs4 = .ok ⟨0x01, [], List.replicate 256 0⟩ ∧
    ¬ ((List.replicate 256 (0 : Byte)).length ≤ 255) := by decide +kernel
theorem witness_RoundTrip : bs4Request.data.length ≤ 65535 ∧ bs4Request.opt.length ≤ 255 ∧ paramsLegal State.reset.params = true ∧
    paramsLegal (withCap 65797 []).params = true := by decide
theorem witness_SingleBitFlip : exec (.encode (.value bs4Request)) State.reset = hands State.reset (.frame bs4Bytes) ∧
    4 ≤ 23 ∧ 23 < bs4Bytes.length := by
  refine ⟨?_, by decide, by decide⟩
  have h : encodePacket bs4Request = .ok bs4Bytes := by decide +kernel
  simp [exec, execEncode, onPacket, packetOf, h, Except.map, hands, answer, State.withReply]
theorem witness_OneByteAtATime : ∃ s₁, exec .reset State.reset = .next s₁ := ⟨_, rfl⟩
theorem witness_Cutting : pushedBytes [.push [0x55], .parse, .push [0x00]] = pushedBytes [.push [0x55, 0x00]] ∧
    fitsCap (withCap 4 []).params.rxbufCap ((withCap 4 []).rxbuf.length + (pushedBytes [.push [0x55, 0x00]]).length) = true := by decide
theorem witness_DrainOrder : (withBytes ([0x01] ++ bs4Bytes ++ [0x02])).rxbuf =
    [([0x01], bs4Request)].flatMap (fun x => x.1 ++ frameBytes (frameOf x.2)) ++ [0x02] ∧ 0x55 ∉ ([0x01] : List Byte) := by decide +kernel
theorem witness_FullBuffer : (withCap 2 [0x55, 0x00]).params.rxbufCap = some 2 ∧ (withCap 2 [0x55, 0x00]).rxbuf.length = 2 ∧
    (∃ t, exec .parse (withCap 2 [0x55, 0x00]) = .next t ∧ t.status = .incomplete) ∧ ([0x01] : List Byte) ≠ [] :=
  ⟨rfl, rfl, ⟨_, eq_next (by decide +kernel), by decide +kernel⟩, by decide⟩
theorem witness_Variants : (⟨0x05, [], []⟩ : Packet).ptype ≠ 0x01 ∧ uteRequest.ptype = 0x01 ∧ uteRequest.data[0]? = some 0xD4 ∧
    bs4Request.data[0]? = some 0xA5 ∧ (∃ b, bs4Request.data[4]? = some b ∧ b.getLsbD 3 = false) ∧
    (⟨0x01, [], []⟩ : Packet).data[0]? ≠ some 0xD4 ∧ (⟨0x01, [], []⟩ : Packet).data[0]? ≠ some 0xA5 :=
  ⟨by decide, rfl, rfl, rfl, ⟨_, rfl, by decide⟩, by decide, by decide⟩
theorem witness_RawFrame : checksumsRight ⟨0x05, 0x1B, [], [], 0x00⟩ = true ∧ checksumsRight ⟨0x05, 0x1C, [], [], 0x00⟩ = false := by
  decide +kernel
theorem witness_PktOperand : State.reset.pktValid = false ∧ holdingBs4.pktValid = true ∧ (packetOps [] true).length = 26 := ⟨rfl, rfl, rfl⟩
theorem witness_RadioFields : (⟨0x01, [0xF6, 0x01, 0x02, 0x03, 0x04, 0x30], [0x01, 0x02, 0x03, 0x04, 0x05]⟩ : Packet).data =
      [0xF6] ++ [0x01, 0x02, 0x03, 0x04] ++ [0x30] ∧
    (⟨0x01, [], [0x01, 0x02, 0x03, 0x04, 0x05]⟩ : Packet).opt = 0x01 :: ([0x02, 0x03, 0x04, 0x05] ++ []) ∧
    (⟨0x01, [0x00, 0x00, 0x00, 0x00, 0x00], [0, 0, 0, 0]⟩ : Packet).data.length < 6 := by decide
theorem witness_Ute : packetOf (.value uteRequest) State.reset = .ok uteRequest ∧ uteTelegram uteRequest ∧
    uteRequest.data[1]? = some 0xA0 ∧ ¬ uteTelegram bs4Request ∧
    uteRequest.data = [0xD4, 0xA0, 0xFF, 0x3E, 0x00, 0x01, 0x01, 0xD2] ++ [0x01, 0x94, 0xE3, 0xB9, 0x00] := by
  unfold uteTelegram
  decide
theorem witness_Bs4 : packetOf .pkt holdingBs4 = .ok bs4Request ∧ bs4Telegram bs4Request ∧ ¬ bs4Telegram uteRequest ∧
    bs4Request.data = [0xA5, 0x04, 0x0C, 0x3E, 0xE0] ++ [0x01, 0x94, 0xE3, 0xB9, 0x00] ∧ (0xE0 : Byte).getLsbD 3 = false ∧
    (0xE8 : Byte).getLsbD 3 = true := by
  unfold bs4Telegram
  decide
theorem witness_Respond : localAddress.length = 4 ∧ exec (.radioSender (.value bs4Request)) State.reset =
      hands State.reset (.address [0x01, 0x94, 0xE3, 0xB9]) ∧
    ∃ r, exec (.respond (.value bs4Request) true localAddress) State.reset = hands State.reset (.packet r) :=
  ⟨rfl, rfl, _, rfl⟩
theorem witness_PushesLeave : holdsPacket holdingBs4 bs4Request ∧ RxAction.parse ∉ [RxAction.push [0x55]] ∧
    ∃ x, runActions [.push [0x55]] holdingBs4 = some x := ⟨⟨rfl, rfl, rfl, rfl⟩, by decide, _, rfl⟩

end Sys2Proof.Tests
end

section
/-! PROOFS. The scope family (00_scope.md): `PARSE` stays within the buffer, so every instruction answers a next state;
and a step runs the decoded instruction. -/

namespace Sys2Proof.Machine

/-- What a case of 40_crc_framing.md R103 says about a buffer of `n` bytes: the frame of cases D and E ends within it,
and in case E the sync byte stands before that end. -/
def ParseCase.endsWithin (n : Nat) : ParseCase → Prop
  | .noSync | .shortHeader | .shortFrame => True
  | .good _ next => next ≤ n
  | .bad sync next => sync < next ∧ next ≤ n

/-- On a present frame the case is D or E, and either ends with the frame. -/
theorem parseCase_frame_endsWithin {g data opt rest : List Byte} {hi lo o t hc dc : Byte} (hg : Config.sync ∉ g)
    (hd : data.length = dataLen hi lo) (ho : opt.length = o.toNat) :
    ∃ c, parseCase (g ++ Config.sync :: hi :: lo :: o :: t :: hc :: (data ++ (opt ++ dc :: rest))) = .ok c ∧
      c.endsWithin (g ++ Config.sync :: hi :: lo :: o :: t :: hc :: (data ++ (opt ++ dc :: rest))).length := by
  refine ⟨_, parseCase_frame hg hd ho, ?_⟩
  split <;> simp only [ParseCase.endsWithin, frameLen, Config.hdrLen, List.length_append, List.length_cons] <;> omega

/-- Every buffer is in a case of R103 that ends within it: no read of `PARSE` is out of range (20_memory.md R46). -/
theorem parseCase_endsWithin (m : Memory) : ∃ c, parseCase m = .ok c ∧ c.endsWithin m.length := by
  obtain hm | ⟨g, r, rfl, hg, hr⟩ | ⟨g, hi, lo, o, t, hc, rest, rfl, hg, hlt⟩ |
    ⟨g, hi, lo, o, t, hc, data, opt, dc, rest, rfl, hg, hd, ho⟩ := buffer_shapes m
  · exact ⟨_, parseCase_noSync hm, trivial⟩
  · exact ⟨_, parseCase_shortHeader hg hr, trivial⟩
  · exact ⟨_, parseCase_shortFrame hg hlt, trivial⟩
  · exact parseCase_frame_endsWithin hg hd ho

/-- A checksum mismatch discards no byte after the declared frame, whatever P_CRC_DISCARD is (R103 case E). -/
theorem discardCount_le (d : CrcDiscard) {sync next : Nat} (h : sync < next) : discardCount d sync next ≤ next := by
  cases d with
  | wholeFrame => exact Nat.le_refl _
  | syncOnly => exact h

/-- `PARSE` never consumes more than RXBUF holds either, so it answers from every state (R46). -/
theorem parseBuffer_ok (s : State) : ∃ t, parseBuffer s = .ok t := by
  obtain ⟨c, hc, hends⟩ := parseCase_endsWithin s.rxbuf
  cases c with
  | noSync => exact ⟨_, parseBuffer_noSync hc⟩
  | shortHeader => exact ⟨_, parseBuffer_short (.inl hc)⟩
  | shortFrame => exact ⟨_, parseBuffer_short (.inr hc)⟩
  | good p next => exact ⟨_, parseBuffer_good hc hends⟩
  | bad sync next =>
    obtain ⟨hsync, hnext⟩ := hends
    exact ⟨_, parseBuffer_bad hc ((discardCount_le _ hsync).trans hnext)⟩

/-- DECODE of any bytes answers, its last operation being a `PARSE` (30_encoding.md R79). -/
theorem decodeBytes_ok (bs : List Byte) (s : State) : ∃ t, decodeBytes bs s = .ok t := parseBuffer_ok _

/-- DECODE of a packet answers: the packet's frame is parsed, or no frame can carry it and `ENCODE` faults. -/
theorem decodePacket_ok (p : Packet) (s : State) : ∃ t, decodePacket p s = .ok t := by
  unfold decodePacket
  split
  · exact decodeBytes_ok _ s
  · exact ⟨_, rfl⟩

/-- An operation whose buffer accesses are all in range answers a next state. -/
theorem settle_next {x : Except Fault State} (h : ∃ t, x = .ok t) : ∃ t, settle x = .next t := by
  obtain ⟨t, ht⟩ := h
  exact ⟨t, settle_eq_next.mpr ht⟩

/-- Settles O6, by the kinds of instruction: `RESET`, `PUSH` and `CRC8` answer outright, `PARSE` and the frame rows by
`parseBuffer_ok`, and the other 26 are pure operations of a packet operand. -/
theorem everyInstructionAnswersANextState : Obligations.EveryInstructionAnswersANextState := by
  intro i s
  cases i with
  | reset => exact ⟨_, rfl⟩
  | push bs => exact ⟨_, rfl⟩
  | crc8 bs => exact ⟨_, rfl⟩
  | parse => exact settle_next (parseBuffer_ok s)
  | frameEsp3 f => exact settle_next (decodeBytes_ok _ s)
  | variantGeneric p | variantUteTeachIn p | variantBs4TeachIn p | variantRadio p =>
    exact settle_next (decodePacket_ok p s)
  | classify o => exact onPacket_next o (fun p => .ok (.tag (classifyPacket p))) s
  | respond o en la => exact onPacket_next o (fun p => .ok (respondOf en la p)) s
  | _ => exact onPacket_next _ _ s

/-- With no command waiting the block is idle (60_exceptions.md R221). -/
theorem step_idle {s : State} (h : s.commands = []) : step s = .next s := by
  simp [step, h]

/-- Settles O5: `step_decoded` and `step_idle` are the two branches. -/
theorem stepRunsTheDecodedInstruction : Obligations.StepRunsTheDecodedInstruction := by
  constructor
  case left => exact fun _ _ _ _ hcommands hdecode => step_decoded hcommands hdecode
  case right => exact fun _ hcommands => step_idle hcommands

end Sys2Proof.Machine
end

section
/-! PROOFS. The state family (10_state.md): what one instruction and one step can do, once each; the invariant of R33;
which registers an operation leaves as they were (R20, R23, R24); and what `PARSE` and `RESET` do not look at (R32). -/

namespace Sys2Proof.Machine

/-! ## The packet `PARSE` finds -/

/-- Two length bytes declare at most MAX_DATA_LEN data bytes (20_memory.md R40). -/
theorem dataLen_le (hi lo : Byte) : dataLen hi lo ≤ Config.maxDataLen := by
  have hhi := hi.isLt
  have hlo := lo.isLt
  simp only [dataLen, Config.maxDataLen]
  omega

/-- The packet of case D has the lengths its header declares, and these fit their fields (10_state.md R20). -/
theorem lengthsFit_of_parseCase_good {m : Memory} {p : Packet} {k : Nat} (h : parseCase m = .ok (.good p k)) :
    lengthsFit p = true := by
  obtain hm | ⟨g, r, rfl, hg, hr⟩ | ⟨g, hi, lo, o, t, hc, rest, rfl, hg, hlt⟩ |
    ⟨g, hi, lo, o, t, hc, data, opt, dc, rest, rfl, hg, hd, ho⟩ := buffer_shapes m
  · cases (parseCase_noSync hm).symm.trans h
  · cases (parseCase_shortHeader hg hr).symm.trans h
  · cases (parseCase_shortFrame hg hlt).symm.trans h
  · rw [parseCase_frame hg hd ho] at h
    split at h
    · obtain ⟨rfl, -⟩ : _ = p ∧ _ = k := by simpa using h
      have hdata : data.length ≤ Config.maxDataLen := hd ▸ dataLen_le hi lo
      have hopt : opt.length ≤ Config.maxOptLen := ho ▸ Nat.le_of_lt_succ o.isLt
      simp [lengthsFit, hdata, hopt]
    · simp at h

/-! ## What an operation can do -/

/-- All `PARSE` can do (40_crc_framing.md R103): it drops bytes at the front of RXBUF, and either records a packet
whose lengths fit or reports another status with no packet. -/
theorem parseBuffer_inv {s t : State} (h : parseBuffer s = .ok t) :
    (∃ p k, lengthsFit p = true ∧
      t = answer (.status .ok) (setPacket p { s with rxbuf := s.rxbuf.drop k })) ∨
    (∃ st k, st ≠ .ok ∧ t = answer (.status st) (setNoPacket st { s with rxbuf := s.rxbuf.drop k })) := by
  obtain ⟨c, hc, hends⟩ := parseCase_endsWithin s.rxbuf
  cases c with
  | noSync =>
    rw [parseBuffer_noSync hc] at h
    exact .inr ⟨.incomplete, s.rxbuf.length, nofun, by simpa using h.symm⟩
  | shortHeader =>
    rw [parseBuffer_short (.inl hc)] at h
    exact .inr ⟨.incomplete, 0, nofun, by simpa using h.symm⟩
  | shortFrame =>
    rw [parseBuffer_short (.inr hc)] at h
    exact .inr ⟨.incomplete, 0, nofun, by simpa using h.symm⟩
  | good p next =>
    rw [parseBuffer_good hc hends] at h
    exact .inl ⟨p, next, lengthsFit_of_parseCase_good hc, by simpa using h.symm⟩
  | bad sync next =>
    obtain ⟨hsync, hnext⟩ := hends
    rw [parseBuffer_bad hc ((discardCount_le _ hsync).trans hnext)] at h
    exact .inr ⟨.crcMismatch, _, nofun, by simpa using h.symm⟩

/-- What an instruction can make of a state: the three operations of 10_state.md R20 that write registers, DECODE of a
frame, which runs all three (30_encoding.md R79), or an outcome told to the host and nothing else. -/
inductive Effect (s : State) : Instr → State → Prop where
  | reset : Effect s .reset (resetBlock s)
  | push (bs : List Byte) : Effect s (.push bs) (pushBytes bs s)
  | parse {t : State} (h : parseBuffer s = .ok t) : Effect s .parse t
  | decode {i : Instr} {t : State} (bs : List Byte) (hi : writesResults i = true) (h : decodeBytes bs s = .ok t) :
      Effect s i t
  | reply (i : Instr) (r : Reply) : Effect s i (s.withReply r)

/-- A pure operation of a packet operand only tells the host its outcome. -/
theorem Effect.of_onPacket {o : PktOperand} {f : Packet → Except OpFault Result} {s t : State}
    (h : onPacket o f s = .next t) (i : Instr) : Effect s i t := by
  obtain ⟨_, r, -, -, rfl⟩ | ⟨_, e, -, -, rfl⟩ | ⟨-, -, rfl⟩ := onPacket_inv h
  · exact .reply i (.result r)
  · exact .reply i (.fault e)
  · exact .reply i (.fault .noPacket)

/-- A VARIANT row runs DECODE of its packet's frame, or `ENCODE` faults and nothing else happens. -/
theorem Effect.of_decodePacket {p : Packet} {i : Instr} {s t : State} (hi : writesResults i = true)
    (h : settle (decodePacket p s) = .next t) : Effect s i t := by
  rw [settle_eq_next, decodePacket] at h
  split at h
  · next bs _ => exact .decode bs hi h
  · next e _ =>
    obtain rfl : raise e s = t := by simpa using h
    exact .reply i (.fault e)

/-- All `exec` can do. -/
theorem exec_effect {i : Instr} {s t : State} (h : exec i s = .next t) : Effect s i t := by
  cases i with
  | reset => cases h; exact .reset
  | push bs => cases h; exact .push bs
  | parse => exact .parse (settle_eq_next.mp h)
  | crc8 bs => cases h; exact .reply _ _
  | frameEsp3 f => exact .decode (frameBytes f) rfl (settle_eq_next.mp h)
  | variantGeneric p | variantUteTeachIn p | variantBs4TeachIn p | variantRadio p => exact .of_decodePacket rfl h
  | classify o => exact .of_onPacket (f := fun p => .ok (.tag (classifyPacket p))) h _
  | respond o en la => exact .of_onPacket (f := fun p => .ok (respondOf en la p)) h _
  | _ => exact .of_onPacket h _

/-- All a step can do: idle, take a command off the queue and run it, or take it off and report `IllegalOp`
(60_exceptions.md R221, R204). -/
theorem step_inv {s t : State} (h : step s = .next t) :
    t = s ∨
    (∃ i waiting, exec i { s with commands := waiting } = .next t) ∨
    (∃ code waiting, t = raise (.illegalOp code) { s with commands := waiting }) := by
  unfold step at h
  split at h
  · exact .inl (by simpa using h.symm)
  · next waiting _ =>
    split at h
    · next i _ => exact .inr (.inl ⟨i, waiting, h⟩)
    · next code _ => exact .inr (.inr ⟨code, waiting, by simpa using h.symm⟩)
    · cases h

/-! ## The invariant of R33 -/

/-- Neither the host's queue nor the outcome it was told is part of the invariant. -/
theorem Inv.with_commands_reply {s : State} (h : Inv s) (waiting : List (List Byte)) (r : Reply) :
    Inv { s with commands := waiting, reply := r } :=
  ⟨h.bufferFits, h.validIffOk, h.dataBound, h.optBound, h.tagRight⟩

/-- Recording a packet makes the flags, the bounds and the tag right, whatever they were before. -/
theorem inv_setPacket {s : State} {p : Packet} (hbuf : Memory.wf s.params.rxbufCap s.rxbuf = true)
    (hp : lengthsFit p = true) : Inv (setPacket p s) := by
  obtain ⟨hdata, hopt⟩ : p.data.length ≤ Config.maxDataLen ∧ p.opt.length ≤ Config.maxOptLen := by
    simpa [lengthsFit] using hp
  exact ⟨hbuf, by simp, hdata, hopt, fun _ => rfl⟩

/-- So does recording that there is none: the free values are cut to the bounds (notes/assumptions/4.md). -/
theorem inv_setNoPacket {s : State} {st : Status} (hbuf : Memory.wf s.params.rxbufCap s.rxbuf = true)
    (hst : st ≠ .ok) : Inv (setNoPacket st s) where
  bufferFits := hbuf
  validIffOk := by simp [hst]
  dataBound := List.length_take_le _ _
  optBound := List.length_take_le _ _
  tagRight := nofun

/-- Settles O9: at power-on the registers are as recording "no packet" leaves them, with the free values at 0. -/
theorem invariantHoldsAtReset : Obligations.InvariantHoldsAtReset := by
  have hrecorded : State.reset = setNoPacket .incomplete { State.reset with freeCount := 0 } := rfl
  unfold Obligations.InvariantHoldsAtReset
  rw [hrecorded]
  exact inv_setNoPacket reset_memory_wf nofun

/-- `RESET` establishes the invariant (70_reset_and_hazards.md R230). -/
theorem inv_resetBlock (s : State) : Inv (resetBlock s) := by
  have hrecorded : Inv (setNoPacket .incomplete { s with rxbuf := [] }) := inv_setNoPacket (empty_wf _) nofun
  exact hrecorded.with_commands_reply _ _

/-- `PUSH` keeps the invariant: it appends only what fits (40_crc_framing.md R102). -/
theorem inv_pushBytes {s : State} (h : Inv s) (bs : List Byte) : Inv (pushBytes bs s) := by
  cases hfit : fitsCap s.params.rxbufCap (s.rxbuf.length + bs.length) with
  | true =>
    rw [pushBytes_fits hfit]
    exact ⟨appendBytes_wf hfit, h.validIffOk, h.dataBound, h.optBound, h.tagRight⟩
  | false =>
    rw [pushBytes_full hfit]
    exact h.with_commands_reply _ _

/-- `PARSE` needs of the state before it only that the buffer fits. -/
theorem inv_parseBuffer {s t : State} (hbuf : Memory.wf s.params.rxbufCap s.rxbuf = true)
    (h : parseBuffer s = .ok t) : Inv t := by
  have hdrop (k : Nat) : Memory.wf s.params.rxbufCap (s.rxbuf.drop k) = true := fitsCap_mono hbuf (by simp)
  obtain ⟨p, k, hp, rfl⟩ | ⟨st, k, hst, rfl⟩ := parseBuffer_inv h
  · exact (inv_setPacket (hdrop k) hp).with_commands_reply _ _
  · exact (inv_setNoPacket (hdrop k) hst).with_commands_reply _ _

/-- DECODE of any bytes establishes the invariant, since it begins with `RESET`. -/
theorem inv_decodeBytes {bs : List Byte} {s t : State} (h : decodeBytes bs s = .ok t) : Inv t :=
  inv_parseBuffer (inv_pushBytes (inv_resetBlock s) bs).bufferFits h

/-- Every instruction keeps the invariant. -/
theorem inv_exec {i : Instr} {s t : State} (hs : Inv s) (h : exec i s = .next t) : Inv t := by
  cases exec_effect h with
  | reset => exact inv_resetBlock s
  | push bs => exact inv_pushBytes hs bs
  | parse hparse => exact inv_parseBuffer hs.bufferFits hparse
  | decode bs _ hdecode => exact inv_decodeBytes hdecode
  | reply r => exact hs.with_commands_reply _ _

/-- Settles O10, by what a step can do: idling and `IllegalOp` write no register, and `inv_exec` is the rest. -/
theorem everyStepKeepsTheInvariant : Obligations.EveryStepKeepsTheInvariant := by
  intro s t hs h
  obtain rfl | ⟨i, waiting, hexec⟩ | ⟨code, waiting, rfl⟩ := step_inv h
  · exact hs
  · exact inv_exec (hs.with_commands_reply waiting s.reply) hexec
  · exact hs.with_commands_reply _ _

/-! ## What an operation leaves as it was -/

/-- STATUS, PKT_VALID and the four packet registers, with the counter of their free values, are the same in two
states (10_state.md R20). -/
def sameResults (s t : State) : Prop :=
  t.status = s.status ∧ t.pktValid = s.pktValid ∧ t.pktTag = s.pktTag ∧ t.pktType = s.pktType ∧
    t.pktData = s.pktData ∧ t.pktOpt = s.pktOpt ∧ t.freeCount = s.freeCount

theorem sameResults.refl (s : State) : sameResults s s := ⟨rfl, rfl, rfl, rfl, rfl, rfl, rfl⟩

theorem sameResults.trans {s t u : State} (hst : sameResults s t) (htu : sameResults t u) : sameResults s u := by
  unfold sameResults at *
  simp_all

theorem sameOutside.trans {s t u : State} (hst : sameOutside s t) (htu : sameOutside t u) : sameOutside s u :=
  ⟨htu.1.trans hst.1, htu.2.trans hst.2⟩

/-- Where the result registers are the same, they hold the same packet. -/
theorem holdsPacket_of_sameResults {s t : State} {p : Packet} (h : sameResults s t) (hs : holdsPacket s p) :
    holdsPacket t p := by
  obtain ⟨hstatus, hvalid, htag, htype, hdata, hopt, -⟩ := h
  simpa [holdsPacket, resultPacket, hstatus, hvalid, htag, htype, hdata, hopt] using hs

/-- `PUSH` writes RXBUF alone, whether its bytes fit or not (10_state.md R23). -/
theorem pushBytes_frame (bs : List Byte) (s : State) :
    sameOutside s (pushBytes bs s) ∧ sameResults s (pushBytes bs s) := by
  cases hfit : fitsCap s.params.rxbufCap (s.rxbuf.length + bs.length) with
  | true =>
    rw [pushBytes_fits hfit]
    exact ⟨⟨rfl, rfl⟩, .refl s⟩
  | false =>
    rw [pushBytes_full hfit]
    exact ⟨⟨rfl, rfl⟩, .refl s⟩

/-- `PARSE` writes neither the parameters nor the waiting commands (R29). -/
theorem parseBuffer_sameOutside {s t : State} (h : parseBuffer s = .ok t) : sameOutside s t := by
  obtain ⟨p, k, -, rfl⟩ | ⟨st, k, -, rfl⟩ := parseBuffer_inv h
  · exact ⟨rfl, rfl⟩
  · exact ⟨rfl, rfl⟩

/-- Nor does DECODE. -/
theorem decodeBytes_sameOutside {bs : List Byte} {s t : State} (h : decodeBytes bs s = .ok t) : sameOutside s t := by
  have hreset : sameOutside s (resetBlock s) := ⟨rfl, rfl⟩
  have hpush : sameOutside (resetBlock s) (pushBytes bs (resetBlock s)) := (pushBytes_frame bs _).1
  exact (hreset.trans hpush).trans (parseBuffer_sameOutside h)

/-- What writes the result registers may write the buffer too (R20). -/
theorem writesBuffer_of_writesResults {i : Instr} (h : writesResults i = true) : writesBuffer i = true := by
  cases i with
  | push bs => rfl
  | _ => exact h

/-- Settles O11, by what an instruction can do. -/
theorem onlyTheNamedOperationsWrite : Obligations.OnlyTheNamedOperationsWrite := by
  intro i s t h
  cases exec_effect h with
  | reset => exact ⟨⟨rfl, rfl⟩, nofun, nofun⟩
  | push bs =>
    obtain ⟨houtside, hresults⟩ := pushBytes_frame bs s
    exact ⟨houtside, nofun, fun _ => hresults⟩
  | parse hparse => exact ⟨parseBuffer_sameOutside hparse, nofun, nofun⟩
  | decode bs hi hdecode =>
    exact ⟨decodeBytes_sameOutside hdecode, by simp [writesBuffer_of_writesResults hi], by simp [hi]⟩
  | reply r => exact ⟨⟨rfl, rfl⟩, fun _ _ => rfl, fun _ => sameResults.refl s⟩

/-- A run of pushes reports nothing and leaves the result registers, however many of its pushes fault. -/
theorem runActions_pushes {as : List RxAction} {s t : State} {reports : List Report} (has : .parse ∉ as)
    (h : runActions as s = some (reports, t)) : sameResults s t ∧ reports = [] := by
  induction as generalizing s with
  | nil =>
    obtain ⟨rfl, rfl⟩ : [] = reports ∧ s = t := by simpa [runActions] using h
    exact ⟨.refl s, rfl⟩
  | cons a rest ih =>
    obtain ⟨hne, hrest⟩ : RxAction.parse ≠ a ∧ .parse ∉ rest := by simpa using has
    cases a with
    | parse => exact absurd rfl hne
    | push bs =>
      have hrun : runActions rest (pushBytes bs s) = some (reports, t) := h
      obtain ⟨hsame, hnone⟩ := ih hrest hrun
      exact ⟨(pushBytes_frame bs s).2.trans hsame, hnone⟩

/-- Settles O50: the pushes leave the result registers, and `PKT` names what these hold. -/
theorem pushesLeaveTheDecodedPacket : Obligations.PushesLeaveTheDecodedPacket := by
  intro s t as reports p hs has h
  obtain ⟨hsame, hnone⟩ := runActions_pushes has h
  have ht : holdsPacket t p := holdsPacket_of_sameResults hsame hs
  obtain ⟨-, hvalid, hpacket, -⟩ := id ht
  exact ⟨ht, hnone, by rw [packetOf_pkt_valid hvalid, hpacket]⟩

/-! ## What `PARSE` and `RESET` do not look at -/

/-- `s` with the flags, the packet registers and the reply of `u`: all that an earlier packet can have left. -/
def State.withResultsOf (s u : State) : State :=
  { s with
    status := u.status
    pktValid := u.pktValid
    pktTag := u.pktTag
    pktType := u.pktType
    pktData := u.pktData
    pktOpt := u.pktOpt
    reply := u.reply }

/-- States that agree on everything else differ only in what an earlier packet left. -/
theorem eq_withResultsOf {s u : State} (hbuf : u.rxbuf = s.rxbuf) (hparams : u.params = s.params)
    (hcommands : u.commands = s.commands) (hcount : u.freeCount = s.freeCount) : u = s.withResultsOf u := by
  rw [State.withResultsOf, ← hbuf, ← hparams, ← hcommands, ← hcount]

/-- `RESET` writes all of it without reading any. -/
theorem resetBlock_withResultsOf (s u : State) : resetBlock (s.withResultsOf u) = resetBlock s := rfl

/-- So does `PARSE`, in each of the five cases of 40_crc_framing.md R103. -/
theorem parseBuffer_withResultsOf (s u : State) : parseBuffer (s.withResultsOf u) = parseBuffer s := by
  obtain ⟨c, hc, hends⟩ := parseCase_endsWithin s.rxbuf
  have hc' : parseCase (s.withResultsOf u).rxbuf = .ok c := hc
  cases c with
  | noSync => rw [parseBuffer_noSync hc, parseBuffer_noSync hc']; rfl
  | shortHeader => rw [parseBuffer_short (.inl hc), parseBuffer_short (.inl hc')]; rfl
  | shortFrame => rw [parseBuffer_short (.inr hc), parseBuffer_short (.inr hc')]; rfl
  | good p next => rw [parseBuffer_good hc hends, parseBuffer_good hc' hends]; rfl
  | bad sync next =>
    obtain ⟨hsync, hnext⟩ := hends
    have hk : discardCount s.params.crcDiscard sync next ≤ s.rxbuf.length := (discardCount_le _ hsync).trans hnext
    rw [parseBuffer_bad hc hk, parseBuffer_bad hc' hk]; rfl

/-- Settles O13: the two states differ only in what neither operation reads. -/
theorem earlierPacketsLeaveNoTrace : Obligations.EarlierPacketsLeaveNoTrace := by
  intro s s' hbuf hparams hcommands hcount
  rw [eq_withResultsOf hbuf hparams hcommands hcount]
  exact ⟨congrArg settle (parseBuffer_withResultsOf s s'),
    congrArg Host.Outcome.next (resetBlock_withResultsOf s s')⟩

end Sys2Proof.Machine
end

section
/-! PROOFS. The memory family (20_memory.md): in which case of 40_crc_framing.md R103 a buffer is, by the bytes it holds;
what `PARSE` makes of a state in each case (R45, R51); what `DRAIN` reports of a buffer; the stream laws R50 and R51. -/

namespace Sys2Proof.Machine

/-! ## Frames in a buffer -/

/-- The two length bytes of a header are those of the length they declare (20_memory.md R40). -/
theorem lenHigh_dataLen (hi lo : Byte) : lenHigh (dataLen hi lo) = hi := by
  have hhi := hi.isLt
  have hlo := lo.isLt
  apply BitVec.eq_of_toNat_eq
  simp only [lenHigh, dataLen, BitVec.toNat_ofNat]
  omega

theorem lenLow_dataLen (hi lo : Byte) : lenLow (dataLen hi lo) = lo := by
  have hlo := lo.isLt
  apply BitVec.eq_of_toNat_eq
  simp only [lenLow, dataLen, BitVec.toNat_ofNat]
  omega

/-- So is the optional length byte. -/
theorem lenLow_toNat (o : Byte) : lenLow o.toNat = o := by simp [lenLow]

/-- Bytes whose header declares the lengths they have are those of a frame. -/
theorem frameBytes_of_header {hi lo o t hc dc : Byte} {data opt : List Byte} (hd : data.length = dataLen hi lo)
    (ho : opt.length = o.toNat) :
    frameBytes ⟨t, hc, data, opt, dc⟩ = Config.sync :: hi :: lo :: o :: t :: hc :: (data ++ (opt ++ [dc])) := by
  rw [frameBytes_eq]
  simp only [hd, ho, lenHigh_dataLen, lenLow_dataLen, lenLow_toNat]

/-- A frame's lengths fit their header fields exactly where they are in the two bounds (00_scope.md R11). -/
theorem lengthsFit_iff {p : Packet} :
    lengthsFit p = true ↔ p.data.length ≤ Config.maxDataLen ∧ p.opt.length ≤ Config.maxOptLen := by
  simp [lengthsFit]

/-- The case of a buffer whose first sync byte begins a present frame: D where both checksums are right, E otherwise. -/
theorem parseCase_frameBytes {g : List Byte} {f : Frame} (hg : Config.sync ∉ g)
    (hf : lengthsFit (framePacket f) = true) (rest : List Byte) :
    parseCase (g ++ (frameBytes f ++ rest)) = .ok
      (if checksumsRight f then .good (framePacket f) (g.length + (frameBytes f).length)
      else .bad g.length (g.length + (frameBytes f).length)) := by
  obtain ⟨hdata, hopt⟩ : f.data.length ≤ Config.maxDataLen ∧ f.opt.length ≤ Config.maxOptLen := lengthsFit_iff.mp hf
  have hlen : (frameBytes f).length = frameLen f.data.length f.opt.length := by
    simp only [frameBytes_length, frameLen, Config.hdrLen]
    omega
  have hcase := parseCase_frame (t := f.ftype) (hc := f.hcrc) (dc := f.dcrc) (rest := rest) hg
    (dataLen_bytes hdata).symm (optLen_byte hopt).symm
  simp only [← checksumsRight_iff, ← hlen] at hcase
  simpa [frameBytes_eq f, framePacket] using hcase

/-- The five cases of 40_crc_framing.md R103, each with the buffers that are in it. -/
inductive InCase : Memory → ParseCase → Prop
  | noSync {m : Memory} (hm : Config.sync ∉ m) : InCase m .noSync
  | shortHeader {g r : List Byte} (hg : Config.sync ∉ g) (hr : r.length < 5) :
      InCase (g ++ Config.sync :: r) .shortHeader
  | shortFrame {g rest : List Byte} {hi lo o t hc : Byte} (hg : Config.sync ∉ g)
      (hrest : rest.length < dataLen hi lo + o.toNat + 1) :
      InCase (g ++ Config.sync :: hi :: lo :: o :: t :: hc :: rest) .shortFrame
  | good {g : List Byte} {f : Frame} (hg : Config.sync ∉ g) (hf : lengthsFit (framePacket f) = true)
      (hright : checksumsRight f = true) (rest : List Byte) :
      InCase (g ++ (frameBytes f ++ rest)) (.good (framePacket f) (g.length + (frameBytes f).length))
  | bad {g : List Byte} {f : Frame} (hg : Config.sync ∉ g) (hf : lengthsFit (framePacket f) = true)
      (hwrong : checksumsRight f = false) (rest : List Byte) :
      InCase (g ++ (frameBytes f ++ rest)) (.bad g.length (g.length + (frameBytes f).length))

/-- A buffer is parsed as the case it is in. -/
theorem InCase.parseCase_eq {m : Memory} {c : ParseCase} (h : InCase m c) : parseCase m = .ok c := by
  cases h with
  | noSync hm => exact parseCase_noSync hm
  | shortHeader hg hr => exact parseCase_shortHeader hg hr
  | shortFrame hg hrest => exact parseCase_shortFrame hg hrest
  | good hg hf hright rest => rw [parseCase_frameBytes hg hf, if_pos hright]
  | bad hg hf hwrong rest => rw [parseCase_frameBytes hg hf, if_neg (by simp [hwrong])]

/-- Every buffer is in a case. -/
theorem exists_inCase (m : Memory) : ∃ c, InCase m c := by
  obtain hm | ⟨g, r, rfl, hg, hr⟩ | ⟨g, hi, lo, o, t, hc, rest, rfl, hg, hrest⟩ |
    ⟨g, hi, lo, o, t, hc, data, opt, dc, rest, rfl, hg, hd, ho⟩ := buffer_shapes m
  · exact ⟨_, .noSync hm⟩
  · exact ⟨_, .shortHeader hg hr⟩
  · exact ⟨_, .shortFrame hg hrest⟩
  · have hbytes := frameBytes_of_header (t := t) (hc := hc) (dc := dc) hd ho
    have hfit : lengthsFit (framePacket ⟨t, hc, data, opt, dc⟩) = true :=
      lengthsFit_iff.mpr ⟨hd.trans_le (dataLen_le hi lo), ho.trans_le (Nat.le_of_lt_succ o.isLt)⟩
    have hm : g ++ Config.sync :: hi :: lo :: o :: t :: hc :: (data ++ (opt ++ dc :: rest)) =
        g ++ (frameBytes ⟨t, hc, data, opt, dc⟩ ++ rest) := by simp [hbytes]
    rw [hm]
    cases hsum : checksumsRight ⟨t, hc, data, opt, dc⟩ with
    | true => exact ⟨_, .good hg hfit hsum rest⟩
    | false => exact ⟨_, .bad hg hfit hsum rest⟩

/-- A buffer is in one case only. -/
theorem InCase.unique {m : Memory} {c c' : ParseCase} (h : InCase m c) (h' : InCase m c') : c = c' :=
  Except.ok.inj (h.parseCase_eq.symm.trans h'.parseCase_eq)

/-! ## What a case reports, and what it leaves in the buffer -/

/-- What a `PARSE` tells the host in each case (R103). -/
def ParseCase.report : ParseCase → Report
  | .noSync | .shortHeader | .shortFrame => .incomplete
  | .good p _ => .packet p (classifyPacket p)
  | .bad _ _ => .crcMismatch

/-- What a `PARSE` leaves of the buffer in each case (R103; P_CRC_DISCARD in case E). -/
def ParseCase.rest (d : CrcDiscard) (m : Memory) : ParseCase → Memory
  | .noSync => []
  | .shortHeader | .shortFrame => m
  | .good _ next => m.drop next
  | .bad sync next => m.drop (discardCount d sync next)

/-- It is never more than there was (R44). -/
theorem ParseCase.rest_length_le (c : ParseCase) (d : CrcDiscard) (m : Memory) : (c.rest d m).length ≤ m.length := by
  cases c <;> simp [ParseCase.rest]

/-- The state a `PARSE` in this case leaves. -/
def ParseCase.after (s : State) (c : ParseCase) : State :=
  let s' := { s with rxbuf := c.rest s.params.crcDiscard s.rxbuf }
  match c with
  | .noSync | .shortHeader | .shortFrame => answer (.status .incomplete) (setNoPacket .incomplete s')
  | .good p _ => answer (.status .ok) (setPacket p s')
  | .bad _ _ => answer (.status .crcMismatch) (setNoPacket .crcMismatch s')

@[simp] theorem ParseCase.after_rxbuf (s : State) (c : ParseCase) :
    (c.after s).rxbuf = c.rest s.params.crcDiscard s.rxbuf := by
  cases c <;> rfl

@[simp] theorem ParseCase.after_params (s : State) (c : ParseCase) : (c.after s).params = s.params := by
  cases c <;> rfl

@[simp] theorem ParseCase.reportOf_after (s : State) (c : ParseCase) : reportOf (c.after s) = c.report := by
  cases c <;> rfl

/-- STATUS is INCOMPLETE exactly where that is the report (10_state.md R22). -/
@[simp] theorem ParseCase.status_after_eq_incomplete (s : State) (c : ParseCase) :
    (c.after s).status = .incomplete ↔ c.report = .incomplete := by
  cases c <;> simp [ParseCase.after, ParseCase.report]

/-- A `PARSE` that reports INCOMPLETE leaves no packet (R23). -/
theorem ParseCase.pktValid_after {c : ParseCase} (hc : c.report = .incomplete) (s : State) :
    (c.after s).pktValid = false := by
  cases c with
  | noSync | shortHeader | shortFrame | bad sync next => rfl
  | good p next => cases hc

/-- All `PARSE` does, by the case its buffer is in. -/
theorem exec_parse_of_inCase {s : State} {c : ParseCase} (h : InCase s.rxbuf c) :
    exec .parse s = .next (c.after s) := by
  obtain ⟨c', hc, hends⟩ := parseCase_endsWithin s.rxbuf
  obtain rfl : c = c' := Except.ok.inj (h.parseCase_eq.symm.trans hc)
  refine settle_eq_next.mpr ?_
  cases c with
  | noSync => exact parseBuffer_noSync hc
  | shortHeader => exact parseBuffer_short (.inl hc)
  | shortFrame => exact parseBuffer_short (.inr hc)
  | good p next => exact parseBuffer_good hc hends
  | bad sync next =>
    obtain ⟨hsync, hnext⟩ := hends
    exact parseBuffer_bad hc ((discardCount_le _ hsync).trans hnext)

/-- If `PARSE` answers a state, its buffer was in a case, and the state is what that case leaves. -/
theorem exec_parse_inv {s t : State} (h : exec .parse s = .next t) : ∃ c, InCase s.rxbuf c ∧ t = c.after s := by
  obtain ⟨c, hc⟩ := exists_inCase s.rxbuf
  exact ⟨c, hc, Host.Outcome.next.inj (h.symm.trans (exec_parse_of_inCase hc))⟩

/-- Behind the garbage and the frame stand the bytes that stay in case D, and in case E with WHOLE_FRAME. -/
theorem drop_frameBytes (g rest : List Byte) (f : Frame) :
    (g ++ (frameBytes f ++ rest)).drop (g.length + (frameBytes f).length) = rest := by
  rw [← List.append_assoc, ← List.length_append, List.drop_left]

/-! ## More bytes behind, garbage before, and a second `PARSE` -/

/-- A result other than INCOMPLETE depends only on the buffer up to the end of the frame (20_memory.md R51): more bytes
behind leave the case as it was ... -/
theorem InCase.append {m : Memory} {c : ParseCase} (h : InCase m c) (hc : c.report ≠ .incomplete) (more : Memory) :
    InCase (m ++ more) c := by
  cases h with
  | noSync | shortHeader | shortFrame => exact absurd rfl hc
  | good hg hf hright rest => simpa only [List.append_assoc] using InCase.good hg hf hright (rest ++ more)
  | bad hg hf hwrong rest => simpa only [List.append_assoc] using InCase.bad hg hf hwrong (rest ++ more)

/-- ... and stay behind what it leaves. -/
theorem InCase.rest_append {m : Memory} {c : ParseCase} (h : InCase m c) (hc : c.report ≠ .incomplete)
    (d : CrcDiscard) (more : Memory) : c.rest d (m ++ more) = c.rest d m ++ more := by
  obtain ⟨c', hc', hends⟩ := parseCase_endsWithin m
  obtain rfl : c = c' := Except.ok.inj (h.parseCase_eq.symm.trans hc')
  cases c with
  | noSync | shortHeader | shortFrame => exact absurd rfl hc
  | good p next => exact List.drop_append_of_le_length hends
  | bad sync next =>
    obtain ⟨hsync, hnext⟩ := hends
    exact List.drop_append_of_le_length ((discardCount_le d hsync).trans hnext)

/-- A result other than INCOMPLETE consumes at least one byte (30_encoding.md R79). -/
theorem InCase.rest_length_lt {m : Memory} {c : ParseCase} (h : InCase m c) (hc : c.report ≠ .incomplete)
    (d : CrcDiscard) : (c.rest d m).length < m.length := by
  cases h with
  | noSync | shortHeader | shortFrame => exact absurd rfl hc
  | good hg hf hright rest =>
    rw [ParseCase.rest, drop_frameBytes]
    simp only [List.length_append, frameBytes_length]
    omega
  | bad hg hf hwrong rest =>
    simp only [ParseCase.rest, List.length_drop, List.length_append, frameBytes_length]
    cases d <;> simp only [discardCount] <;> omega

/-- What a mismatch discards is counted from the front of the buffer. -/
theorem discardCount_add (d : CrcDiscard) (n sync next : Nat) :
    discardCount d (n + sync) (n + next) = n + discardCount d sync next := by
  cases d <;> simp [discardCount, Nat.add_assoc]

/-- Bytes with no sync byte are skipped as garbage (R51): before a buffer they change neither what `PARSE` reports nor,
unless that is INCOMPLETE, what it leaves. -/
theorem InCase.skip_garbage {g m : Memory} {c : ParseCase} (hg : Config.sync ∉ g) (h : InCase m c) :
    ∃ c', InCase (g ++ m) c' ∧ c'.report = c.report ∧
      (c.report ≠ .incomplete → ∀ d, c'.rest d (g ++ m) = c.rest d m) := by
  have hskip {x : Memory} (hx : Config.sync ∉ x) : Config.sync ∉ g ++ x := fun h => (List.mem_append.mp h).elim hg hx
  cases h with
  | noSync hm => exact ⟨_, .noSync (hskip hm), rfl, fun hc => absurd rfl hc⟩
  | shortHeader hg' hr =>
    rw [← List.append_assoc]
    exact ⟨_, .shortHeader (hskip hg') hr, rfl, fun hc => absurd rfl hc⟩
  | shortFrame hg' hrest =>
    rw [← List.append_assoc]
    exact ⟨_, .shortFrame (hskip hg') hrest, rfl, fun hc => absurd rfl hc⟩
  | good hg' hf hright rest =>
    rw [← List.append_assoc]
    refine ⟨_, .good (hskip hg') hf hright rest, rfl, fun _ d => ?_⟩
    simp only [ParseCase.rest, drop_frameBytes]
  | bad hg' hf hwrong rest =>
    rw [← List.append_assoc]
    refine ⟨_, .bad (hskip hg') hf hwrong rest, rfl, fun _ d => ?_⟩
    simp only [ParseCase.rest, List.length_append, Nat.add_assoc, discardCount_add, List.append_assoc,
      List.drop_length_add_append]

/-- A `PARSE` that reports INCOMPLETE leaves a buffer with a sync byte as it was (20_memory.md R45). -/
theorem InCase.rest_of_sync {m : Memory} {c : ParseCase} (h : InCase m c) (hc : c.report = .incomplete)
    (hm : Config.sync ∈ m) (d : CrcDiscard) : c.rest d m = m := by
  cases h with
  | noSync hno => exact absurd hm hno
  | shortHeader | shortFrame => rfl
  | good | bad => cases hc

/-- It leaves a buffer that is in the same case (R45). -/
theorem InCase.rest_inCase {m : Memory} {c : ParseCase} (h : InCase m c) (hc : c.report = .incomplete)
    (d : CrcDiscard) : InCase (c.rest d m) c := by
  cases c with
  | noSync => exact .noSync List.not_mem_nil
  | shortHeader | shortFrame => exact h
  | good p next | bad sync next => cases hc

/-- And a second `PARSE` leaves that buffer as it is (R45). -/
theorem ParseCase.rest_rest {c : ParseCase} (hc : c.report = .incomplete) (d : CrcDiscard) (m : Memory) :
    c.rest d (c.rest d m) = c.rest d m := by
  cases c with
  | noSync | shortHeader | shortFrame => rfl
  | good p next | bad sync next => cases hc

/-- Settles O23: the second `PARSE` meets the case the first one met, and that case leaves its buffer as it is. -/
theorem incompleteParseIsIdempotent : Obligations.IncompleteParseIsIdempotent := by
  intro s t h hst
  obtain ⟨c, hin, rfl⟩ := exec_parse_inv h
  have hc : c.report = .incomplete := (c.status_after_eq_incomplete s).mp hst
  have hagain : InCase (c.after s).rxbuf c := by simpa using hin.rest_inCase hc s.params.crcDiscard
  refine ⟨fun hm => ?_, c.after (c.after s), exec_parse_of_inCase hagain, ?_, ?_, c.pktValid_after hc _⟩
  · simpa using hin.rest_of_sync hc hm s.params.crcDiscard
  · simp [c.rest_rest hc]
  · simpa using hc

/-- More bytes behind the buffer stay behind what a `PARSE` leaves, and change nothing else of its state. -/
theorem InCase.after_append {s : State} {c : ParseCase} (h : InCase s.rxbuf c) (hc : c.report ≠ .incomplete)
    (more : Memory) :
    c.after { s with rxbuf := s.rxbuf ++ more } = { c.after s with rxbuf := (c.after s).rxbuf ++ more } := by
  have hrest := h.rest_append hc s.params.crcDiscard more
  cases c with
  | noSync | shortHeader | shortFrame => exact absurd rfl hc
  | good p next => simp only [ParseCase.after, hrest]; rfl
  | bad sync next => simp only [ParseCase.after, hrest]; rfl

/-- Settles O25: the buffer with the bytes behind it is in the same case. -/
theorem laterBytesDoNotChangeAParse : Obligations.LaterBytesDoNotChangeAParse := by
  intro s t more h hst
  obtain ⟨c, hin, rfl⟩ := exec_parse_inv h
  have hc : c.report ≠ .incomplete := fun hinc => hst ((c.status_after_eq_incomplete s).mpr hinc)
  rw [exec_parse_of_inCase (s := { s with rxbuf := s.rxbuf ++ more }) (hin.append hc more), hin.after_append hc]

/-! ## No run stops with a machine fault -/

/-- A step never stops with a machine fault (20_memory.md R46). -/
theorem step_ne_fault (s : State) (f : Fault) : step s ≠ .fault f := by
  unfold step
  split
  · nofun
  · next c waiting _ =>
    split
    · next i _ =>
      obtain ⟨t, ht⟩ := everyInstructionAnswersANextState i { s with commands := waiting }
      rw [ht]
      nofun
    · nofun
    · nofun

/-- A machine none of whose steps faults has no run that faults. -/
theorem run_ne_fault {M : Host.Core} (hstep : ∀ s f, M.step s ≠ .fault f) (n : Nat) (s : M.State) (f : M.Fault) :
    M.run n s ≠ .fault f := by
  induction n generalizing s with
  | zero => nofun
  | succ n ih =>
    unfold Host.Core.run
    split
    · next t _ => exact ih t
    · next r hr => exact absurd hr (hstep s r)
    · nofun

/-- Settles O7: no step of the block faults. -/
theorem noRunEndsInAMachineFault : Obligations.NoRunEndsInAMachineFault :=
  fun s n f => run_ne_fault (M := core) step_ne_fault n s f

/-! ## What `DRAIN` reports of a buffer -/

/-- The reports of `DRAIN` (30_encoding.md R79) on a buffer, and the buffer it ends with: they depend on nothing else but
P_CRC_DISCARD. -/
inductive Drains (d : CrcDiscard) : Memory → List Report → Memory → Prop
  | stop {m : Memory} {c : ParseCase} (h : InCase m c) (hc : c.report = .incomplete) : Drains d m [] (c.rest d m)
  | report {m e : Memory} {c : ParseCase} {rs : List Report} (h : InCase m c) (hc : c.report ≠ .incomplete)
      (hrest : Drains d (c.rest d m) rs e) : Drains d m (c.report :: rs) e

/-- A buffer drains in one way only. -/
theorem Drains.unique {d : CrcDiscard} {m e e' : Memory} {rs rs' : List Report} (h : Drains d m rs e)
    (h' : Drains d m rs' e') : rs = rs' ∧ e = e' := by
  induction h generalizing rs' with
  | stop h hc =>
    cases h' with
    | stop h₂ _ => exact ⟨rfl, by rw [h.unique h₂]⟩
    | report h₂ hc₂ _ => exact absurd (h.unique h₂ ▸ hc) hc₂
  | report h hc _ ih =>
    cases h' with
    | stop h₂ hc₂ => exact absurd (h₂.unique h ▸ hc₂) hc
    | report h₂ _ hrest₂ =>
      obtain rfl := h.unique h₂
      obtain ⟨rfl, he⟩ := ih hrest₂
      exact ⟨rfl, he⟩

/-- `DRAIN` ends at a `PARSE` that reports INCOMPLETE ... -/
theorem drainWithin_incomplete {s t : State} (n : Nat) (h : exec .parse s = .next t) (ht : reportOf t = .incomplete) :
    drainWithin (n + 1) s = some ([], t) := by
  simp [drainWithin, h, ht]

/-- ... and goes on after any other. -/
theorem drainWithin_report {s t : State} (n : Nat) (h : exec .parse s = .next t) (ht : reportOf t ≠ .incomplete) :
    drainWithin (n + 1) s = (drainWithin n t).map (fun x => (reportOf t :: x.1, x.2)) := by
  simp only [drainWithin, h]

/-- With a bound above the buffer's length `DRAIN` answers, and what it answers is the buffer's. -/
theorem drainWithin_drains {n : Nat} {s : State} (hn : s.rxbuf.length < n) :
    ∃ rs t, drainWithin n s = some (rs, t) ∧ Drains s.params.crcDiscard s.rxbuf rs t.rxbuf := by
  induction n generalizing s with
  | zero => omega
  | succ n ih =>
    obtain ⟨c, hin⟩ := exists_inCase s.rxbuf
    have hparse := exec_parse_of_inCase hin
    by_cases hc : c.report = .incomplete
    · refine ⟨[], c.after s, drainWithin_incomplete n hparse (by simpa using hc), ?_⟩
      simpa using Drains.stop hin hc
    · have hlt := hin.rest_length_lt hc s.params.crcDiscard
      obtain ⟨rs, t, hdrain, hrs⟩ := ih (s := c.after s) (by simp; omega)
      refine ⟨c.report :: rs, t, ?_, .report hin hc (by simpa using hrs)⟩
      rw [drainWithin_report n hparse (by simpa using hc), hdrain]
      simp

/-- `DRAIN` answers from every state. -/
theorem drain_drains (s : State) :
    ∃ rs t, drain s = some (rs, t) ∧ Drains s.params.crcDiscard s.rxbuf rs t.rxbuf :=
  drainWithin_drains (Nat.lt_succ_self _)

/-- Garbage before a buffer changes none of its reports. -/
theorem Drains.skip_garbage {d : CrcDiscard} {g m e : Memory} {rs : List Report} (hg : Config.sync ∉ g)
    (h : Drains d m rs e) : ∃ e', Drains d (g ++ m) rs e' := by
  cases h with
  | stop hin hc =>
    obtain ⟨c', hin', hreport, -⟩ := hin.skip_garbage hg
    exact ⟨_, .stop hin' (hreport.trans hc)⟩
  | report hin hc hrest =>
    obtain ⟨c', hin', hreport, hrest'⟩ := hin.skip_garbage hg
    rw [← hreport]
    exact ⟨_, .report hin' (hreport ▸ hc) (hrest' hc d ▸ hrest)⟩

/-- Frames with garbage between them drain to their packets: each `PARSE` skips the garbage and consumes one frame. -/
theorem drains_frames (d : CrcDiscard) {frames : List (List Byte × Packet)} {tail : List Byte}
    (hframes : ∀ x ∈ frames, Config.sync ∉ x.1 ∧ x.2.data.length ≤ 65535 ∧ x.2.opt.length ≤ 255)
    (htail : Config.sync ∉ tail) :
    Drains d (frames.flatMap (fun x => x.1 ++ frameBytes (frameOf x.2)) ++ tail)
      (frames.map (fun x => .packet x.2 (classifyPacket x.2))) [] := by
  induction frames with
  | nil => exact .stop (.noSync htail) rfl
  | cons x frames ih =>
    obtain ⟨⟨hg, hdata, hopt⟩, hframes⟩ := List.forall_mem_cons.mp hframes
    have hfit : lengthsFit (framePacket (frameOf x.2)) = true := lengthsFit_iff.mpr ⟨hdata, hopt⟩
    have hin := InCase.good hg hfit (checksumsRight_frameOf x.2)
      (frames.flatMap (fun x => x.1 ++ frameBytes (frameOf x.2)) ++ tail)
    rw [List.flatMap_cons, List.append_assoc, List.append_assoc]
    refine .report hin nofun ?_
    simpa only [ParseCase.rest, drop_frameBytes] using ih hframes

/-- Settles O32: what `DRAIN` answers is what the buffer drains to, and that is `drains_frames`. -/
theorem drainReportsFramesInStreamOrder : Obligations.DrainReportsFramesInStreamOrder := by
  intro s frames tail hframes htail hbuf
  obtain ⟨rs, t, hdrain, hrs⟩ := drain_drains s
  rw [hbuf] at hrs
  obtain ⟨rfl, hempty⟩ := hrs.unique (drains_frames _ hframes htail)
  exact ⟨t, hdrain, hempty⟩

/-! ## Cutting the stream into pushes -/

/-- A `PARSE` that reports INCOMPLETE removes nothing from the stream but garbage, which changes no report. -/
theorem Drains.before_incomplete {d : CrcDiscard} {m more e : Memory} {c : ParseCase} {rs : List Report}
    (hin : InCase m c) (hc : c.report = .incomplete) (h : Drains d (c.rest d m ++ more) rs e) :
    ∃ e', Drains d (m ++ more) rs e' := by
  cases hin with
  | noSync hm => exact h.skip_garbage hm
  | shortHeader | shortFrame => exact ⟨e, h⟩
  | good | bad => cases hc

/-- A `PARSE` in the middle of the stream changes no report still to come (20_memory.md R51): one that reports
INCOMPLETE changes nothing, or removes only garbage; any other takes its report off the front. -/
theorem Drains.before_parse {d : CrcDiscard} {m more e : Memory} {c : ParseCase} {rs : List Report} (hin : InCase m c)
    (h : Drains d (c.rest d m ++ more) rs e) :
    ∃ e', Drains d (m ++ more) ([c.report].filter (· ≠ .incomplete) ++ rs) e' := by
  by_cases hc : c.report = .incomplete
  · simpa [hc] using Drains.before_incomplete hin hc h
  · have hrest := hin.rest_append hc d more
    simpa [hc] using ⟨e, Drains.report (hin.append hc more) hc (hrest ▸ h)⟩

/-- A run of pushes and `PARSE`s whose pushes all fit answers, and its reports are the first of those the whole stream
drains to: the rest are what its last state drains to. -/
theorem runActions_drains {as : List RxAction} {s : State}
    (hfit : fitsCap s.params.rxbufCap (s.rxbuf.length + (pushedBytes as).length) = true) :
    ∃ ra ta da ua e, runActions as s = some (ra, ta) ∧ drain ta = some (da, ua) ∧
      Drains s.params.crcDiscard (s.rxbuf ++ pushedBytes as) (ra.filter (· ≠ .incomplete) ++ da) e := by
  induction as generalizing s with
  | nil =>
    obtain ⟨da, ua, hdrain, hda⟩ := drain_drains s
    exact ⟨[], s, da, ua, _, rfl, hdrain, by simpa [pushedBytes] using hda⟩
  | cons a as ih =>
    cases a with
    | push bs =>
      have hpushed : fitsCap s.params.rxbufCap (s.rxbuf.length + bs.length) = true :=
        fitsCap_mono hfit (by simp [pushedBytes])
      have hpush : exec (.push bs) s = .next (answer .done (appendBytes bs s)) :=
        congrArg Host.Outcome.next (pushBytes_fits hpushed)
      obtain ⟨ra, ta, da, ua, e, hra, hda, hdrains⟩ := ih (s := answer .done (appendBytes bs s))
        (by simpa [pushedBytes, Nat.add_assoc] using hfit)
      exact ⟨ra, ta, da, ua, e, by simp [runActions, hpush, hra], hda, by simpa [pushedBytes] using hdrains⟩
    | parse =>
      obtain ⟨c, hin⟩ := exists_inCase s.rxbuf
      have hparse := exec_parse_of_inCase hin
      have hle := c.rest_length_le s.params.crcDiscard s.rxbuf
      obtain ⟨ra, ta, da, ua, e, hra, hda, hdrains⟩ := ih (s := c.after s)
        (by simpa [pushedBytes] using fitsCap_mono hfit (Nat.add_le_add_right hle _))
      rw [c.after_params, c.after_rxbuf] at hdrains
      obtain ⟨e', hstream⟩ := Drains.before_parse hin hdrains
      refine ⟨c.report :: ra, ta, da, ua, e', by simp [runActions, hparse, hra], hda, ?_⟩
      rwa [← List.append_assoc, ← List.filter_append] at hstream

/-- Settles O30: both cuttings report what the one stream drains to. -/
theorem cuttingTheStreamDoesNotMatter : Obligations.CuttingTheStreamDoesNotMatter := by
  intro as bs s hbytes hfit
  obtain ⟨ra, ta, da, ua, _, hra, hda, has⟩ := runActions_drains hfit
  obtain ⟨rb, tb, db, ub, _, hrb, hdb, hbs⟩ := runActions_drains (hbytes ▸ hfit)
  rw [hbytes] at has
  exact ⟨ra, ta, da, ua, rb, tb, db, ub, hra, hda, hrb, hdb, (has.unique hbs).1⟩

end Sys2Proof.Machine
end

section
/-! PROOFS. The encoding family (30_encoding.md): the operation decoder by the operand shapes of R78, the frame decoder
by the layout of R60, and what decoding a frame and draining a buffer do (R79). -/

namespace Sys2Proof

open Machine

/-! ## The operation decoder -/

/-- The bytes in which each operand shape of R78 carries its operands, with the instruction these complete. -/
inductive Shape.Carries : Shape → List Byte → Instr → Prop
  | none (i : Instr) : Carries (.none i) [] i
  | seq (mk : List Byte → Instr) (s : List Byte) : Carries (.seq mk) (putSeq s) (mk s)
  | packet (mk : PktOperand → Instr) (p : PktOperand) : Carries (.packet mk) (putPacket p) (mk p)
  | packetAddress (mk : PktOperand → Address → Instr) (p : PktOperand) (la : Address) :
      Carries (.packetAddress mk) (putPacket p ++ putSeq la) (mk p la)
  | packetBitAddress (mk : PktOperand → Bool → Address → Instr) (p : PktOperand) (en : Bool) (la : Address) :
      Carries (.packetBitAddress mk) (putPacket p ++ putBit en ++ putSeq la) (mk p en la)

/-- The operands a shape carries are read back, whatever zero bytes follow (notes/assumptions/10.md). -/
theorem Shape.Carries.decodeOperands_eq {shape : Shape} {args : List Byte} {i : Instr} (h : shape.Carries args i)
    (n : Nat) : decodeOperands shape (args ++ List.replicate n 0) = .ok i := by
  cases h with
  | none => exact atEnd_zeros i n
  | seq mk s => simp only [decodeOperands, takeSeq_putSeq, atEnd_zeros]
  | packet mk p => simp only [decodeOperands, takePacket_putPacket, atEnd_zeros]
  | packetAddress mk p la =>
    simp only [decodeOperands, List.append_assoc, takePacket_putPacket, takeSeq_putSeq, atEnd_zeros]
  | packetBitAddress mk p en la =>
    simp only [decodeOperands, List.append_assoc, takePacket_putPacket, takeBit_putBit, takeSeq_putSeq, atEnd_zeros]

/-- A command whose first byte has its two upper bits clear is an operation: the sync byte has not. -/
theorem decode_operation {b : Byte} (hb : b.extractLsb 7 6 = 0) (args : List Byte) :
    decode (b :: args) = decodeOp (b.setWidth 6) args := by
  have hsync : b ≠ Config.sync := by
    rintro rfl
    exact absurd hb (by decide)
  simp only [decode, if_neg hsync, if_pos hb]

/-- An OP code with the operands of the shape R78 lists for it is read back as the instruction they complete. -/
theorem decode_select {b : Byte} {shape : Shape} {args : List Byte} {i : Instr} (hb : b.extractLsb 7 6 = 0)
    (hshape : shapeOf (b.setWidth 6) = some shape) (hargs : shape.Carries args i) (n : Nat) :
    decode (b :: args ++ List.replicate n 0) = .ok i := by
  rw [List.cons_append, decode_operation hb, decodeOp, hshape]
  exact hargs.decodeOperands_eq n

/-! ## The frame decoder -/

/-- Behind a header that declares their lengths, the data and optional bytes and the data CRC8 are read (R61). -/
theorem decodeFrame_of_header {hi lo o t hc dc : Byte} {data opt : List Byte} (hd : data.length = dataLen hi lo)
    (ho : opt.length = o.toNat) (rest : List Byte) :
    decodeFrame (hi :: lo :: o :: t :: hc :: (data ++ (opt ++ dc :: rest))) =
      atEnd (frameInstr ⟨t, hc, data, opt, dc⟩) rest := by
  simp [decodeFrame, ← hd, ← ho, ← List.drop_drop]

/-- The bytes of a frame whose lengths fit their fields are read back as that frame's row. -/
theorem decode_frameBytes {f : Frame} (hf : lengthsFit (framePacket f) = true) (n : Nat) :
    decode (frameBytes f ++ List.replicate n 0) = .ok (frameInstr f) := by
  obtain ⟨hdata, hopt⟩ : f.data.length ≤ Config.maxDataLen ∧ f.opt.length ≤ Config.maxOptLen :=
    lengthsFit_iff.mp hf
  have hframe := decodeFrame_of_header (t := f.ftype) (hc := f.hcrc) (dc := f.dcrc) (dataLen_bytes hdata).symm
    (optLen_byte hopt).symm (List.replicate n 0)
  rw [atEnd_zeros] at hframe
  simpa [frameBytes_eq, decode] using hframe

/-- The VARIANT row of each tag (30_encoding.md R74). -/
def Tag.row : Tag → Packet → Instr
  | .generic => .variantGeneric
  | .radio => .variantRadio
  | .uteTeachIn => .variantUteTeachIn
  | .bs4TeachIn => .variantBs4TeachIn

theorem Tag.wf_row (t : Tag) (p : Packet) : (t.row p).wf = variantAdmits t p := by
  cases t <;> rfl

theorem Tag.encode_row (t : Tag) (p : Packet) : encode (t.row p) = frameBytes (frameOf p) := by
  cases t <;> rfl

/-- A frame with both checksums right is the row of its packet's tag ... -/
theorem frameInstr_of_right {f : Frame} (h : checksumsRight f = true) :
    frameInstr f = (classifyPacket (framePacket f)).row (framePacket f) := by
  rw [frameInstr, if_pos h]
  cases classifyPacket (framePacket f) <;> rfl

/-- ... and any other is FRAME.ESP3. -/
theorem frameInstr_of_wrong {f : Frame} (h : checksumsRight f = false) : frameInstr f = .frameEsp3 f := by
  simp [frameInstr, h]

/-- A VARIANT row admits the packets of its variant that fit a frame (R74). -/
theorem variantAdmits_iff {t : Tag} {p : Packet} :
    variantAdmits t p = true ↔ lengthsFit p = true ∧ classifyPacket p = t := by
  simp [variantAdmits]

/-- A well-formed VARIANT row is read back. -/
theorem decode_encode_row {t : Tag} {p : Packet} (h : variantAdmits t p = true) (n : Nat) :
    decode (encode (t.row p) ++ List.replicate n 0) = .ok (t.row p) := by
  obtain ⟨hfit, rfl⟩ := variantAdmits_iff.mp h
  rw [Tag.encode_row, decode_frameBytes (f := frameOf p) hfit, frameInstr_of_right (checksumsRight_frameOf p)]
  rfl

/-- So is a well-formed FRAME.ESP3. -/
theorem decode_encode_frameEsp3 {f : Frame} (h : (Instr.frameEsp3 f).wf = true) (n : Nat) :
    decode (encode (.frameEsp3 f) ++ List.replicate n 0) = .ok (.frameEsp3 f) := by
  obtain ⟨hfit, hwrong⟩ : lengthsFit (framePacket f) = true ∧ checksumsRight f = false := by
    simpa [Instr.wf] using h
  exact (decode_frameBytes hfit n).trans (congrArg _ (frameInstr_of_wrong hwrong))

/-- Settles O1, by the rows of the opcode table: an operation by the shape of its operands, a frame row by its frame. -/
theorem decodeOfEncodeIsTheInstruction : Obligations.DecodeOfEncodeIsTheInstruction := by
  intro i n hwf
  cases i with
  | reset | parse => rw [encode, headByte]; exact decode_select rfl rfl (.none _) n
  | push s | crc8 s => rw [encode, headByte]; exact decode_select rfl rfl (.seq _ s) n
  | uteResp p la | bs4Resp p la => rw [encode, headByte]; exact decode_select rfl rfl (.packetAddress _ p la) n
  | respond p en la => rw [encode, headByte]; exact decode_select rfl rfl (.packetBitAddress _ p en la) n
  | frameEsp3 f => exact decode_encode_frameEsp3 hwf n
  | variantGeneric p => exact decode_encode_row (t := .generic) hwf n
  | variantUteTeachIn p => exact decode_encode_row (t := .uteTeachIn) hwf n
  | variantBs4TeachIn p => exact decode_encode_row (t := .bs4TeachIn) hwf n
  | variantRadio p => exact decode_encode_row (t := .radio) hwf n
  | _ p => rw [encode, headByte]; exact decode_select rfl rfl (.packet _ p) n

/-! ## What the decoder can answer -/

/-- A decoder's answer that has a property where it is no error, and that is never `IllegalOp`. -/
def Answers {α : Type} (P : α → Prop) : Except DecodeError α → Prop
  | .ok a => P a
  | .error (.malformed _) => True
  | .error (.illegalOp _) => False

/-- An error of one reader is the answer of the one that called it. -/
theorem Answers.error {α β : Type} {P : α → Prop} {Q : β → Prop} {x : Except DecodeError α} {e : DecodeError}
    (h : Answers P x) (hx : x = .error e) : Answers Q (.error e) := by
  subst hx
  cases e with
  | malformed why => trivial
  | illegalOp code => exact h

/-- What a reader answers has the property. -/
theorem Answers.of_ok {α : Type} {P : α → Prop} {x : Except DecodeError α} {a : α} (h : Answers P x)
    (hx : x = .ok a) : P a := by
  subst hx
  exact h

/-- A reader never answers `IllegalOp`. -/
theorem Answers.ne_illegalOp {α : Type} {P : α → Prop} {x : Except DecodeError α} (h : Answers P x)
    (code : BitVec 6) : x ≠ .error (.illegalOp code) := by
  rintro rfl
  exact h

/-- The end of a command answers the instruction read, or the bytes go on. -/
theorem atEnd_answers {P : Instr → Prop} {i : Instr} (hi : P i) (rest : List Byte) : Answers P (atEnd i rest) := by
  unfold atEnd
  split
  · exact hi
  · trivial

/-- A byte sequence operand is read, or its bytes are no such operand. -/
theorem takeSeq_answers (bs : List Byte) : Answers (fun _ => True) (takeSeq bs) := by
  induction bs using takeSeq.induct with
  | case1 => trivial
  | case2 more => rw [takeSeq_end]; trivial
  | case3 => trivial
  | case4 b more bs after hmore => rw [takeSeq_byte, hmore]; trivial
  | case5 b more e hmore _ ih => rw [takeSeq_byte, hmore]; exact ih.error hmore
  | case6 m more hend hbyte => simp only [takeSeq.eq_def (m :: more), if_neg hend, if_neg hbyte]; trivial

/-- So is a packet operand. -/
theorem takePacket_answers (bs : List Byte) : Answers (fun _ => True) (takePacket bs) := by
  unfold takePacket
  split
  · trivial
  · split
    · trivial
    · split
      · split
        · trivial
        · split
          · next e hdata => exact (takeSeq_answers _).error hdata
          · split
            · next e hopt => exact (takeSeq_answers _).error hopt
            · trivial
      · trivial

/-- So is a bit operand. -/
theorem takeBit_answers (bs : List Byte) : Answers (fun _ => True) (takeBit bs) := by
  unfold takeBit
  split
  · trivial
  · split
    · trivial
    · split <;> trivial

/-- Reading a shape's operands answers an instruction they complete, or the bytes are no such operands: an unlisted OP
code is the only `IllegalOp` (60_exceptions.md R204). -/
theorem decodeOperands_answers (shape : Shape) (args : List Byte) :
    Answers (fun i => ∃ used, shape.Carries used i) (decodeOperands shape args) := by
  cases shape with
  | none i => exact atEnd_answers ⟨_, .none i⟩ args
  | seq mk =>
    rw [decodeOperands]
    split
    · next s rest _ => exact atEnd_answers ⟨_, .seq mk s⟩ rest
    · next e he => exact (takeSeq_answers _).error he
  | packet mk =>
    rw [decodeOperands]
    split
    · next p rest _ => exact atEnd_answers ⟨_, .packet mk p⟩ rest
    · next e he => exact (takePacket_answers _).error he
  | packetAddress mk =>
    rw [decodeOperands]
    split
    · next e he => exact (takePacket_answers _).error he
    · next p more _ =>
      split
      · next la rest _ => exact atEnd_answers ⟨_, .packetAddress mk p la⟩ rest
      · next e he => exact (takeSeq_answers _).error he
  | packetBitAddress mk =>
    rw [decodeOperands]
    split
    · next e he => exact (takePacket_answers _).error he
    · next p more _ =>
      split
      · next e he => exact (takeBit_answers _).error he
      · next en more' _ =>
        split
        · next la rest _ => exact atEnd_answers ⟨_, .packetBitAddress mk p en la⟩ rest
        · next e he => exact (takeSeq_answers _).error he

/-- Each row of the operation table completes well-formed instructions only: the operands of an operation are not
tested before it runs (WellFormed.lean). -/
theorem wf_of_shapeOf {op : BitVec 6} {shape : Shape} {args : List Byte} {i : Instr} (h : shapeOf op = some shape)
    (hargs : shape.Carries args i) : i.wf = true := by
  unfold shapeOf at h
  split at h <;> cases h <;> cases hargs <;> rfl

/-- What the operation decoder answers is well formed. -/
theorem wf_of_decodeOp {op : BitVec 6} {args : List Byte} {i : Instr} (h : decodeOp op args = .ok i) :
    i.wf = true := by
  unfold decodeOp at h
  split at h
  · next shape hshape =>
    obtain ⟨used, hused⟩ := (decodeOperands_answers shape args).of_ok h
    exact wf_of_shapeOf hshape hused
  · cases h

/-- The end of a command answers the instruction it was given. -/
theorem atEnd_eq_ok {i j : Instr} {rest : List Byte} (h : atEnd i rest = .ok j) : j = i :=
  (atEnd_answers (P := (· = i)) rfl rest).of_ok h

/-- The frame decoder answers the row of a frame whose lengths fit their fields: these hold no others (R61). -/
theorem decodeFrame_eq_ok {bs : List Byte} {i : Instr} (h : decodeFrame bs = .ok i) :
    ∃ f, lengthsFit (framePacket f) = true ∧ i = frameInstr f := by
  unfold decodeFrame at h
  split at h
  · next hi lo o t hc body =>
    simp only at h
    split at h
    · cases h
    · next dc rest _ =>
      refine ⟨_, lengthsFit_iff.mpr ⟨?_, ?_⟩, atEnd_eq_ok h⟩
      · exact (List.length_take_le _ _).trans (dataLen_le hi lo)
      · exact (List.length_take_le _ _).trans (Nat.le_of_lt_succ o.isLt)
  · cases h

/-- The row of a frame is well formed where its lengths fit. -/
theorem wf_frameInstr {f : Frame} (hf : lengthsFit (framePacket f) = true) : (frameInstr f).wf = true := by
  cases hsum : checksumsRight f with
  | true => rw [frameInstr_of_right hsum, Tag.wf_row]; exact variantAdmits_iff.mpr ⟨hf, rfl⟩
  | false => simp [frameInstr_of_wrong hsum, Instr.wf, hf, hsum]

/-- Settles O2, by what a command's first byte selects: a frame row by its lengths and checksums, an operation by its
place in the table. -/
theorem decodedInstructionIsWellFormed : Obligations.DecodedInstructionIsWellFormed := by
  intro c i h
  unfold decode at h
  split at h
  · cases h
  · split at h
    · obtain ⟨f, hf, rfl⟩ := decodeFrame_eq_ok h
      exact wf_frameInstr hf
    · split at h
      · exact wf_of_decodeOp h
      · cases h

/-! ## The OP codes R78 does not list -/

/-- The table of R78 has no row for exactly the codes of 93_implementation_defined.md U15. -/
theorem shapeOf_isNone_iff : ∀ op : BitVec 6, (shapeOf op).isNone = true ↔ unlistedCode op.toNat := by
  unfold unlistedCode
  decide

/-- The command byte of an OP code is that code with its two upper bits clear. -/
theorem decode_code (op : BitVec 6) (args : List Byte) : decode (op.setWidth 8 :: args) = decodeOp op args := by
  have hupper : (op.setWidth 8).extractLsb 7 6 = 0 := by decide +revert
  rw [decode_operation hupper, BitVec.setWidth_setWidth_of_le _ (by decide), BitVec.setWidth_eq]

/-- An unlisted code is `IllegalOp` before any operand is read (60_exceptions.md R207) ... -/
theorem decode_unlistedCode {op : BitVec 6} (h : unlistedCode op.toNat) (args : List Byte) :
    decode (op.setWidth 8 :: args) = .error (.illegalOp op) := by
  have hnone : shapeOf op = none := Option.isNone_iff_eq_none.mp ((shapeOf_isNone_iff op).mpr h)
  rw [decode_code, decodeOp, hnone]

/-- ... and a listed one never is. -/
theorem decode_listedCode {op : BitVec 6} (h : ¬ unlistedCode op.toNat) (args : List Byte) (code : BitVec 6) :
    decode (op.setWidth 8 :: args) ≠ .error (.illegalOp code) := by
  obtain ⟨shape, hshape⟩ : ∃ shape, shapeOf op = some shape :=
    Option.ne_none_iff_exists'.mp fun hnone => h ((shapeOf_isNone_iff op).mp (Option.isNone_iff_eq_none.mpr hnone))
  rw [decode_code, decodeOp, hshape]
  exact (decodeOperands_answers shape args).ne_illegalOp code

/-! ## The example words -/

/-- A table word whose bytes are a well-formed instruction's command and zeros decodes to that instruction. -/
theorem decodeTableWord_of_encode {i : Instr} {nbits w n : Nat} (hwf : i.wf = true)
    (hbytes : tableBytes nbits w = encode i ++ List.replicate n 0) : decodeTableWord nbits w = some i := by
  rw [decodeTableWord, hbytes, decodeOfEncodeIsTheInstruction i n hwf]

/-- A command without padding is read back too. -/
theorem decode_of_encode {i : Instr} {c : List Byte} (hwf : i.wf = true) (hbytes : c = encode i) :
    decode c = .ok i := by
  rw [hbytes, ← List.append_nil (encode i)]
  exact decodeOfEncodeIsTheInstruction i 0 hwf

/-- Settles O3: each word is the command of a well-formed instruction. -/
theorem specWordsDecode : Obligations.SpecWordsDecode := by
  refine ⟨?_, ?_, ?_, ?_, ?_, ?_⟩
  · exact decodeTableWord_of_encode (n := 8) rfl (by decide)
  · exact decodeTableWord_of_encode (n := 4) rfl (by decide)
  · exact decode_of_encode rfl rfl
  · exact decode_of_encode rfl rfl
  · exact decode_of_encode (by decide +kernel) (by decide +kernel)
  · exact decode_of_encode (by decide +kernel) (by decide +kernel)

end Sys2Proof

namespace Sys2Proof.Machine

/-! ## The step on an OP code R78 does not list -/

/-- The step that meets an unlisted code takes the command and reports the fault (30_encoding.md R75). -/
theorem step_illegalOp {s : State} {c : List Byte} {waiting : List (List Byte)} {code : BitVec 6}
    (hcommands : s.commands = c :: waiting) (hdecode : decode c = .error (.illegalOp code)) :
    step s = faults { s with commands := waiting } (.illegalOp code) := by
  simp only [step, hcommands, hdecode]
  rfl

/-- Settles O4: the decoder tests the code against the table before it reads any operand. -/
theorem unlistedCodesAreIllegalOp : Obligations.UnlistedCodesAreIllegalOp := by
  constructor
  case left => exact fun _ args _ _ hcode hcommands => step_illegalOp hcommands (decode_unlistedCode hcode args)
  case right => exact fun _ args code hcode => decode_listedCode hcode args code

/-! ## Progress of `PARSE`, and the end of `DRAIN` -/

/-- A `PARSE` that does not report INCOMPLETE takes bytes off the front: the frame with the garbage before it, or, on a
mismatch with SYNC_ONLY, the sync byte with that garbage (40_crc_framing.md R103). -/
theorem InCase.taken {m : Memory} {c : ParseCase} (h : InCase m c) (hc : c.report ≠ .incomplete) (d : CrcDiscard) :
    ∃ gone, m = gone ++ c.rest d m ∧ 1 ≤ gone.length ∧ (d = .wholeFrame → 7 ≤ gone.length) := by
  cases h with
  | noSync | shortHeader | shortFrame => exact absurd rfl hc
  | good hg hf hright rest =>
    refine ⟨_, (List.take_append_drop _ _).symm, ?_, fun _ => ?_⟩
    · simp only [List.length_take, List.length_append, frameBytes_length]; omega
    · simp only [List.length_take, List.length_append, frameBytes_length]; omega
  | bad hg hf hwrong rest =>
    refine ⟨_, (List.take_append_drop (discardCount d _ _) _).symm, ?_, ?_⟩
    · cases d <;> simp only [discardCount, List.length_take, List.length_append, frameBytes_length] <;> omega
    · rintro rfl
      simp only [discardCount, List.length_take, List.length_append, frameBytes_length]
      omega

/-- Settles O24: `PARSE` leaves the rest of the case its buffer is in. -/
theorem parseMakesProgress : Obligations.ParseMakesProgress := by
  intro s t h hst
  obtain ⟨c, hin, rfl⟩ := exec_parse_inv h
  have hc : c.report ≠ .incomplete := fun hinc => hst ((c.status_after_eq_incomplete s).mpr hinc)
  rw [c.after_rxbuf]
  exact hin.taken hc s.params.crcDiscard

/-- The reports a buffer drains to are all but the last, which is the one INCOMPLETE (30_encoding.md R79). -/
theorem Drains.incomplete_notMem {d : CrcDiscard} {m e : Memory} {rs : List Report} (h : Drains d m rs e) :
    .incomplete ∉ rs := by
  induction h with
  | stop _ _ => exact List.not_mem_nil
  | report _ hc _ ih => exact List.not_mem_cons_of_ne_of_not_mem (Ne.symm hc) ih

/-- The registers report INCOMPLETE only where STATUS says so. -/
theorem status_of_reportOf_incomplete {t : State} (h : reportOf t = .incomplete) : t.status = .incomplete := by
  unfold reportOf at h
  split at h
  · cases h
  · assumption
  · cases h

/-- Where `DRAIN` ends, STATUS is INCOMPLETE. -/
theorem drainWithin_status {n : Nat} {s t : State} {rs : List Report} (h : drainWithin n s = some (rs, t)) :
    t.status = .incomplete := by
  induction n generalizing s rs with
  | zero => cases h
  | succ n ih =>
    obtain ⟨u, hparse⟩ := everyInstructionAnswersANextState .parse s
    by_cases hu : reportOf u = .incomplete
    · rw [drainWithin_incomplete n hparse hu] at h
      cases h
      exact status_of_reportOf_incomplete hu
    · rw [drainWithin_report n hparse hu, Option.map_eq_some_iff] at h
      obtain ⟨⟨rs', t'⟩, hdrain, heq⟩ := h
      cases heq
      exact ih hdrain

/-- Settles O31: every state drains, within the bound. -/
theorem drainTerminates : Obligations.DrainTerminates := by
  intro s
  obtain ⟨reports, t, hdrain, hdrains⟩ := drain_drains s
  exact ⟨reports, t, hdrain, drainWithin_status hdrain, hdrains.incomplete_notMem⟩

/-! ## A frame on a fresh buffer -/

/-- A legal buffer holds any frame (00_scope.md R5: RXBUF_CAP is at least MAX_FRAME_LEN). -/
theorem fitsCap_frameBytes {P : Params} (hP : paramsLegal P = true) {f : Frame}
    (hf : lengthsFit (framePacket f) = true) : fitsCap P.rxbufCap (frameBytes f).length = true := by
  obtain ⟨hdata, hopt⟩ : f.data.length ≤ 65535 ∧ f.opt.length ≤ 255 := lengthsFit_iff.mp hf
  cases hcap : P.rxbufCap with
  | none => rfl
  | some cap =>
    have hlegal : 65797 ≤ cap := by
      simp only [paramsLegal, hcap, Bool.and_eq_true, decide_eq_true_eq] at hP
      exact hP.1
    simp only [fitsCap, frameBytes_length, decide_eq_true_eq]
    omega

/-- The block with these bytes alone in RXBUF: what `RESET` and a `PUSH` that fits leave. -/
def freshWith (bs : List Byte) (s : State) : State := answer .done (appendBytes bs (resetBlock s))

@[simp] theorem freshWith_rxbuf (bs : List Byte) (s : State) : (freshWith bs s).rxbuf = bs := rfl
@[simp] theorem freshWith_params (bs : List Byte) (s : State) : (freshWith bs s).params = s.params := rfl

/-- DECODE of a frame (30_encoding.md R79) leaves what the case of its bytes alone leaves. -/
theorem decodeBytes_frameBytes {f : Frame} {s : State} {c : ParseCase} (hs : paramsLegal s.params = true)
    (hf : lengthsFit (framePacket f) = true) (hin : InCase (frameBytes f) c) :
    decodeBytes (frameBytes f) s = .ok (c.after (freshWith (frameBytes f) s)) := by
  have hpush : pushBytes (frameBytes f) (resetBlock s) = freshWith (frameBytes f) s :=
    pushBytes_fits (by simpa using fitsCap_frameBytes hs hf)
  rw [decodeBytes, hpush]
  exact settle_eq_next.mp (exec_parse_of_inCase (s := freshWith (frameBytes f) s) hin)

/-- The bytes of a frame alone are in case D where both its checksums are right ... -/
theorem inCase_frameBytes_right {f : Frame} (hf : lengthsFit (framePacket f) = true) (h : checksumsRight f = true) :
    InCase (frameBytes f) (.good (framePacket f) (frameBytes f).length) := by
  simpa using InCase.good (g := []) List.not_mem_nil hf h []

/-- ... and in case E where one is wrong. -/
theorem inCase_frameBytes_wrong {f : Frame} (hf : lengthsFit (framePacket f) = true) (h : checksumsRight f = false) :
    InCase (frameBytes f) (.bad 0 (frameBytes f).length) := by
  simpa using InCase.bad (g := []) List.not_mem_nil hf h []

/-- DECODE of a frame with right checksums takes its packet and empties the buffer. -/
theorem decodeBytes_right {f : Frame} {s : State} (hs : paramsLegal s.params = true)
    (hf : lengthsFit (framePacket f) = true) (h : checksumsRight f = true) :
    ∃ t, decodeBytes (frameBytes f) s = .ok t ∧ holdsPacket t (framePacket f) ∧ t.rxbuf = [] ∧
      t.reply = .result (.status .ok) ∧ sameOutside s t := by
  refine ⟨_, decodeBytes_frameBytes hs hf (inCase_frameBytes_right hf h), ⟨rfl, rfl, rfl, rfl⟩, ?_, rfl, rfl, rfl⟩
  simp [ParseCase.rest]

/-- DECODE of any other frame is a mismatch, and discards by P_CRC_DISCARD. -/
theorem decodeBytes_wrong {f : Frame} {s : State} (hs : paramsLegal s.params = true)
    (hf : lengthsFit (framePacket f) = true) (h : checksumsRight f = false) :
    ∃ t, decodeBytes (frameBytes f) s = .ok t ∧ reportsNoPacket .crcMismatch s t ∧
      t.rxbuf = (frameBytes f).drop (discardCount s.params.crcDiscard 0 (frameBytes f).length) :=
  ⟨_, decodeBytes_frameBytes hs hf (inCase_frameBytes_wrong hf h), ⟨rfl, rfl, rfl, rfl, rfl⟩, rfl⟩

/-- Settles O35, by the frame's checksums. -/
theorem rawFrameIsTakenOrMismatched : Obligations.RawFrameIsTakenOrMismatched := by
  intro f s hdata hopt hs
  have hf : lengthsFit (framePacket f) = true := lengthsFit_iff.mpr ⟨hdata, hopt⟩
  cases hsum : checksumsRight f with
  | true =>
    obtain ⟨t, hdecode, hpacket, hbuf, -, houtside⟩ := decodeBytes_right hs hf hsum
    exact ⟨t, settle_eq_next.mpr hdecode, houtside, fun _ => ⟨hpacket, hbuf⟩, nofun⟩
  | false =>
    obtain ⟨t, hdecode, hreports, hbuf⟩ := decodeBytes_wrong hs hf hsum
    obtain ⟨-, -, -, houtside⟩ := id hreports
    refine ⟨t, settle_eq_next.mpr hdecode, houtside, nofun, fun _ => ⟨hreports, fun hd => ?_, fun hd => ?_⟩⟩
    · rw [hbuf, hd, discardCount, List.drop_length]
    · rw [hbuf, hd, discardCount, List.drop_one]

/-- DECODE of a packet's own frame takes the packet, with the tag `CLASSIFY` gives it (40_crc_framing.md R105). -/
theorem decodePacket_taken {p : Packet} {s : State} {tag : Tag} (hp : lengthsFit p = true)
    (hs : paramsLegal s.params = true) (htag : classifyPacket p = tag) :
    ∃ t, settle (decodePacket p s) = .next t ∧ holdsPacket t p ∧ t.pktTag = tag ∧ t.rxbuf = [] ∧
      t.reply = .result (.status .ok) ∧ sameOutside s t := by
  obtain ⟨t, hdecode, hpacket, hbuf, hreply, houtside⟩ :=
    decodeBytes_right (f := frameOf p) hs hp (checksumsRight_frameOf p)
  obtain ⟨-, -, -, htagged⟩ := id hpacket
  refine ⟨t, settle_eq_next.mpr ?_, hpacket, htagged.trans htag, hbuf, hreply, houtside⟩
  simp only [decodePacket, encodePacket, if_pos hp, hdecode]

/-- The discriminator of a BS4 teach-in query is a present byte's bit 3, clear (30_encoding.md R71). -/
theorem queryBit_eq_some_iff {data : List Byte} {q : Bool} :
    queryBit data = some q ↔ ∃ b, data[4]? = some b ∧ b.getLsbD 3 = q := by
  simp [queryBit]

/-! The condition of each VARIANT row is the one `CLASSIFY` tests (R74, 41_packet_model.md R120). -/

theorem classifyPacket_generic {p : Packet} (htype : p.ptype ≠ 0x01) : classifyPacket p = .generic := if_pos htype

theorem classifyPacket_uteTeachIn {p : Packet} (htype : p.ptype = 0x01) (hute : p.data[0]? = some 0xD4) :
    classifyPacket p = .uteTeachIn := by
  rw [classifyPacket, if_neg (not_not.mpr htype), if_pos hute]

theorem classifyPacket_bs4TeachIn {p : Packet} (htype : p.ptype = 0x01) (hbs4 : p.data[0]? = some 0xA5)
    (hquery : ∃ b, p.data[4]? = some b ∧ b.getLsbD 3 = false) : classifyPacket p = .bs4TeachIn := by
  have hute : p.data[0]? ≠ some 0xD4 := by simp [hbs4]
  rw [classifyPacket, if_neg (not_not.mpr htype), if_neg hute, if_pos ⟨hbs4, queryBit_eq_some_iff.mpr hquery⟩]

theorem classifyPacket_radio {p : Packet} (htype : p.ptype = 0x01) (hute : p.data[0]? ≠ some 0xD4)
    (hbs4 : ¬ (p.data[0]? = some 0xA5 ∧ ∃ b, p.data[4]? = some b ∧ b.getLsbD 3 = false)) :
    classifyPacket p = .radio := by
  rw [← queryBit_eq_some_iff] at hbs4
  rw [classifyPacket, if_neg (not_not.mpr htype), if_neg hute, if_neg hbs4]

/-- Settles O34: each row takes its packet, with the tag its condition gives. -/
theorem variantFramesLeaveTheirPacketAndTag : Obligations.VariantFramesLeaveTheirPacketAndTag := by
  intro p s hdata hopt hs
  have hp : lengthsFit p = true := lengthsFit_iff.mpr ⟨hdata, hopt⟩
  refine ⟨fun htype => ?_, fun htype hute => ?_, fun htype hbs4 hquery => ?_, fun htype hute hbs4 => ?_⟩
  · exact decodePacket_taken hp hs (classifyPacket_generic htype)
  · exact decodePacket_taken hp hs (classifyPacket_uteTeachIn htype hute)
  · exact decodePacket_taken hp hs (classifyPacket_bs4TeachIn htype hbs4 hquery)
  · exact decodePacket_taken hp hs (classifyPacket_radio htype hute hbs4)

end Sys2Proof.Machine
end

section
/-! PROOFS. The framing family (40_crc_framing.md), first part: CRC8 as a linear function of its bytes (R100, R101), its
table, and the parity of the bits it keeps. -/

namespace Sys2Proof.Machine

/-! ## One byte of the checksum -/

/-- A shift of R100 is linear: both the shifted value and the polynomial's correction are. -/
theorem crcShift_xor (a b : Byte) : crcShift (a ^^^ b) = crcShift a ^^^ crcShift b := by
  have hshift : (a ^^^ b) <<< 1 = (a <<< 1) ^^^ (b <<< 1) := BitVec.shiftLeft_xor_distrib a b 1
  have hpoly : Config.crc8Poly ^^^ Config.crc8Poly = 0#8 := BitVec.xor_self
  simp only [crcShift, BitVec.getLsbD_xor, hshift]
  cases a.getLsbD 7 <;> cases b.getLsbD 7 <;>
    simp only [Bool.xor_true, Bool.xor_false, Bool.not_true, Bool.not_false, Bool.false_eq_true, if_true, if_false]
  case false.true | true.false => ac_rfl
  case true.true =>
    calc (a <<< 1) ^^^ (b <<< 1) = (a <<< 1) ^^^ (b <<< 1) ^^^ (Config.crc8Poly ^^^ Config.crc8Poly) := by
          rw [hpoly, BitVec.xor_zero]
      _ = (a <<< 1) ^^^ Config.crc8Poly ^^^ ((b <<< 1) ^^^ Config.crc8Poly) := by ac_rfl

/-- So is any number of them. -/
theorem repeat_crcShift_xor (n : Nat) (a b : Byte) :
    Nat.repeat crcShift n (a ^^^ b) = Nat.repeat crcShift n a ^^^ Nat.repeat crcShift n b := by
  induction n with
  | zero => rfl
  | succ n ih => simp only [Nat.repeat, ih, crcShift_xor]

/-- One byte of R100 is linear in the running value and the byte together. -/
theorem crcByte_xor (c d a b : Byte) : crcByte (c ^^^ d) (a ^^^ b) = crcByte c a ^^^ crcByte d b := by
  have hswap : c ^^^ d ^^^ (a ^^^ b) = (c ^^^ a) ^^^ (d ^^^ b) := by ac_rfl
  rw [crcByte, hswap, repeat_crcShift_xor]
  rfl

/-- A byte equal to the running value takes it to 0. -/
@[simp] theorem crcByte_self (c : Byte) : crcByte c c = 0 := by
  rw [crcByte, BitVec.xor_self]
  rfl

/-- The eight shifts on the running value XOR the byte depend on that XOR alone. -/
theorem crcByte_eq_crc8_singleton (c b : Byte) : crcByte c b = crc8 [c ^^^ b] := by
  simp [crc8, crcByte]

/-! ## The checksum of a sequence -/

/-- One more byte. -/
@[simp] theorem crc8_append_singleton (S : List Byte) (b : Byte) : crc8 (S ++ [b]) = crcByte (crc8 S) b := by
  simp [crc8, List.foldl_append]

/-- Settles O16: `crc8_append_singleton` is the loop body of R100. -/
theorem crc8RunsThePseudocode : Obligations.Crc8RunsThePseudocode := by
  refine ⟨fun S s => rfl, rfl, fun S b => ?_, fun S => rfl⟩
  rw [crc8_append_singleton]
  rfl

/-- The table as printed in R101 holds the checksum of each byte. -/
theorem crcTable_getElem? : ∀ v : Byte, crcTable[v.toNat]? = some (crc8 [v]) := by decide +kernel

/-- Settles O17: each step of the table form looks up one byte of the other form. -/
theorem crcTableFormAgrees : Obligations.CrcTableFormAgrees := by
  refine ⟨crcTable_getElem?, fun S => ?_⟩
  have hstep : (fun c b : Byte => crcTable.getD (c ^^^ b).toNat 0) = crcByte := by
    funext c b
    rw [List.getD_eq_getElem?_getD, crcTable_getElem?, crcByte_eq_crc8_singleton]
    rfl
  rw [crc8ByTable, hstep, crc8]

/-- Settles O18: the last byte meets itself as the running value; and a zero byte meets 0. -/
theorem crcOfSequenceWithItsChecksumIsZero : Obligations.CrcOfSequenceWithItsChecksumIsZero := by
  refine ⟨fun S => by rw [crc8_append_singleton, crcByte_self], fun n => ?_⟩
  induction n with
  | zero => rfl
  | succ n ih => rw [List.replicate_succ', crc8_append_singleton, ih, crcByte_self]

/-- From two running values, sequences of equal length XOR to the XOR of where they end. -/
theorem foldl_crcByte_zipWith {A B : List Byte} (h : A.length = B.length) (c d : Byte) :
    (List.zipWith (· ^^^ ·) A B).foldl crcByte (c ^^^ d) = A.foldl crcByte c ^^^ B.foldl crcByte d := by
  induction A generalizing B c d with
  | nil =>
    obtain rfl : B = [] := List.eq_nil_of_length_eq_zero h.symm
    rfl
  | cons a A ih =>
    cases B with
    | nil => cases h
    | cons b B =>
      simp only [List.zipWith_cons_cons, List.foldl_cons, crcByte_xor]
      exact ih (Nat.succ.inj h) _ _

/-- Settles O19: the initial value 0 is the XOR of two initial values. -/
theorem crcIsLinear : Obligations.CrcIsLinear :=
  fun _ _ h => foldl_crcByte_zipWith h Config.crc8Init Config.crc8Init

/-! ## The parity of the bits -/

/-- XOR counts, up to an even number, the places where either of two tests holds. -/
theorem countP_xor_mod_two {α : Type} (p q : α → Bool) (l : List α) :
    l.countP (fun x => p x ^^ q x) % 2 = (l.countP p + l.countP q) % 2 := by
  induction l with
  | nil => rfl
  | cons x l ih =>
    simp only [List.countP_cons]
    cases p x <;> cases q x <;> simp <;> omega

/-- The weight of a XOR is the sum of the weights, up to an even number. -/
theorem byteWeight_xor_mod_two (a b : Byte) : byteWeight (a ^^^ b) % 2 = (byteWeight a + byteWeight b) % 2 := by
  simp only [byteWeight, BitVec.getLsbD_xor]
  exact countP_xor_mod_two _ _ _

/-- A shift of R100 keeps the parity: the polynomial, its leading term included, has an even number of terms. -/
theorem byteWeight_crcShift_mod_two : ∀ c : Byte, byteWeight (crcShift c) % 2 = byteWeight c % 2 := by decide +kernel

theorem byteWeight_repeat_crcShift_mod_two (n : Nat) (c : Byte) :
    byteWeight (Nat.repeat crcShift n c) % 2 = byteWeight c % 2 := by
  induction n with
  | zero => rfl
  | succ n ih => rw [Nat.repeat, byteWeight_crcShift_mod_two, ih]

/-- The checksum has the parity of the running value's and the bytes' bits together. -/
theorem byteWeight_foldl_crcByte_mod_two (S : List Byte) (c : Byte) :
    byteWeight (S.foldl crcByte c) % 2 = (byteWeight c + (S.map byteWeight).sum) % 2 := by
  induction S generalizing c with
  | nil => rfl
  | cons b S ih =>
    have hbyte : byteWeight (crcByte c b) % 2 = (byteWeight c + byteWeight b) % 2 :=
      (byteWeight_repeat_crcShift_mod_two 8 _).trans (byteWeight_xor_mod_two c b)
    simp only [List.foldl_cons, List.map_cons, List.sum_cons, ih]
    omega

/-- A sequence has as many bits, up to an even number, as its checksum. -/
theorem byteWeight_crc8_mod_two (S : List Byte) : byteWeight (crc8 S) % 2 = (S.map byteWeight).sum % 2 := by
  rw [crc8, byteWeight_foldl_crcByte_mod_two, show byteWeight Config.crc8Init = 0 from rfl, Nat.zero_add]

/-- Settles O20: equal checksums would XOR to 0, whose parity is even, and by linearity to the checksum of the XOR, whose
parity is odd. -/
theorem crcDetectsOddBitErrors : Obligations.CrcDetectsOddBitErrors := by
  intro A B hlen hodd heq
  have hzero : crc8 (List.zipWith (· ^^^ ·) A B) = 0 := by
    rw [crcIsLinear A B hlen, heq]
    exact BitVec.xor_self
  have hparity := byteWeight_crc8_mod_two (List.zipWith (· ^^^ ·) A B)
  rw [hzero, ← bitsDiffering, hodd] at hparity
  cases hparity

end Sys2Proof.Machine
end

section
/-! PROOFS. The framing family (40_crc_framing.md), second part: `PUSH` (R102), `PARSE` (R103), `ENCODE` (R104), and the
laws the spec derives from them: the round trip (R105), checksum rejection (R106) and incremental parsing (R107). -/

namespace Sys2Proof.Machine

/-! ## PUSH -/

/-- The capacity test in the words of the statements: only a finite capacity can be too small (00_scope.md R5, D3). -/
theorem fitsCap_iff {cap : Option Nat} {n : Nat} : fitsCap cap n = true ↔ ∀ c, cap = some c → n ≤ c := by
  cases cap <;> simp [fitsCap]

/-- `PUSH` of bytes that fit. -/
theorem exec_push_fits {bs : List Byte} {s : State}
    (h : fitsCap s.params.rxbufCap (s.rxbuf.length + bs.length) = true) :
    exec (.push bs) s = .next (answer .done (appendBytes bs s)) :=
  congrArg Host.Outcome.next (pushBytes_fits h)

/-- `PUSH` of bytes that do not. -/
theorem exec_push_full {bs : List Byte} {s : State}
    (h : fitsCap s.params.rxbufCap (s.rxbuf.length + bs.length) = false) :
    exec (.push bs) s = faults s (.bufferFull s.rxbuf.length bs.length) :=
  congrArg Host.Outcome.next (pushBytes_full h)

/-- Appending in two parts is appending at once. -/
theorem appendBytes_append (as bs : List Byte) (s : State) :
    answer .done (appendBytes bs (answer .done (appendBytes as s))) = answer .done (appendBytes (as ++ bs) s) := by
  simp only [answer, appendBytes, List.append_assoc]

/-- Settles O21: the capacity test decides between the two outcomes, and bytes that fit together fit one after the
other. -/
theorem pushAppendsAllOrNothing : Obligations.PushAppendsAllOrNothing := by
  refine ⟨fun bs s hfit => exec_push_fits (fitsCap_iff.mpr hfit), fun bs s cap hcap hlt => ?_,
    fun as bs s hfit => ?_, fun _ => rfl⟩
  · exact exec_push_full (by simpa [fitsCap, hcap] using hlt)
  · have hboth : fitsCap s.params.rxbufCap (s.rxbuf.length + as.length + bs.length) = true := fitsCap_iff.mpr hfit
    refine ⟨_, exec_push_fits (fitsCap_mono hboth (Nat.le_add_right _ _)), ?_⟩
    rw [exec_push_fits (by simpa [Nat.add_assoc] using hboth), exec_push_fits (by simpa [Nat.add_assoc] using hboth),
      appendBytes_append]

/-! ## PARSE -/

/-- Bytes whose header declares the lengths they have are those of a frame `ENCODE` could have built but for its two
checksum bytes, and these are right where the two comparisons of R103 say so. -/
theorem exists_frame_of_header {data opt : List Byte} {hi lo olen ty hcrc dcrc : Byte}
    (hd : data.length = dataLen hi lo) (ho : opt.length = olen.toNat) :
    ∃ f, framePacket f = ⟨ty, data, opt⟩ ∧ lengthsFit (framePacket f) = true ∧
      (checksumsRight f = true ↔ crc8 [hi, lo, olen, ty] = hcrc ∧ crc8 (data ++ opt) = dcrc) ∧
      frameBytes f = Config.sync :: hi :: lo :: olen :: ty :: hcrc :: (data ++ (opt ++ [dcrc])) := by
  refine ⟨⟨ty, hcrc, data, opt, dcrc⟩, rfl, ?_, ?_, frameBytes_of_header hd ho⟩
  · exact lengthsFit_iff.mpr ⟨hd.trans_le (dataLen_le hi lo), ho.trans_le (Nat.le_of_lt_succ olen.isLt)⟩
  · rw [checksumsRight_iff]
    simp only [hd, ho, lenHigh_dataLen, lenLow_dataLen, lenLow_toNat]

/-- Settles O22: the five buffers are in the five cases, and `exec_parse_of_inCase` is what `PARSE` does in each. -/
theorem parseFollowsItsFiveCases : Obligations.ParseFollowsItsFiveCases := by
  refine ⟨fun s hm => ?caseA, fun s g r hm hg hr => ?caseB, fun s g rest hi lo olen ty hcrc hm hg hrest => ?caseC,
    fun s g data opt rest hi lo olen ty hcrc dcrc hm hg hd ho => ?present, rfl⟩
  case caseA => exact ⟨_, exec_parse_of_inCase (.noSync hm), rfl, rfl, rfl, rfl, rfl, rfl⟩
  case caseB =>
    have hin : InCase s.rxbuf .shortHeader := hm ▸ .shortHeader hg hr
    exact ⟨_, exec_parse_of_inCase hin, rfl, rfl, rfl, rfl, rfl, rfl⟩
  case caseC =>
    have hin : InCase s.rxbuf .shortFrame := by
      simpa [hm] using InCase.shortFrame (t := ty) (hc := hcrc) hg hrest
    exact ⟨_, exec_parse_of_inCase hin, rfl, rfl, rfl, rfl, rfl, rfl⟩
  case present =>
    obtain ⟨f, hpacket, hfit, hsums, hbytes⟩ :=
      exists_frame_of_header (ty := ty) (hcrc := hcrc) (dcrc := dcrc) hd ho
    have hbuf : s.rxbuf = g ++ (frameBytes f ++ rest) := by simp [hm, hbytes]
    rw [← hsums]
    refine ⟨fun hright => ?caseD, fun hwrong => ?caseE⟩
    case caseD =>
      have hin := InCase.good hg hfit hright rest
      rw [← hbuf, hpacket] at hin
      refine ⟨_, exec_parse_of_inCase hin, ?_, rfl, rfl, rfl, rfl, rfl, rfl, rfl, rfl, rfl⟩
      rw [ParseCase.after_rxbuf, ParseCase.rest, hbuf, drop_frameBytes]
    case caseE =>
      have hin := InCase.bad hg hfit (by simpa using hwrong) rest
      rw [← hbuf] at hin
      refine ⟨_, exec_parse_of_inCase hin, ⟨rfl, rfl, rfl, rfl, rfl⟩, fun hdiscard => ?_, fun hdiscard => ?_⟩
      · rw [ParseCase.after_rxbuf, ParseCase.rest, hdiscard, discardCount, hbuf, drop_frameBytes]
      · rw [ParseCase.after_rxbuf, ParseCase.rest, hdiscard, discardCount, hbuf, hbytes]
        simp

/-! ## ENCODE -/

/-- `ENCODE` of a packet whose lengths fit hands over its frame. -/
theorem exec_encode_fits {o : PktOperand} {s : State} {p : Packet} (ho : packetOf o s = .ok p)
    (hp : lengthsFit p = true) : exec (.encode o) s = hands s (.frame (frameBytes (frameOf p))) :=
  onPacket_result ho (by simp [encodePacket, hp, Except.map])

/-- `ENCODE` of any other faults. -/
theorem exec_encode_long {o : PktOperand} {s : State} {p : Packet} (ho : packetOf o s = .ok p)
    (hp : lengthsFit p = false) : exec (.encode o) s = faults s (.invalidPacket p.data.length p.opt.length) :=
  onPacket_fault ho (by simp [encodePacket, hp, Except.map])

/-- What `ENCODE` hands over is the frame of a packet whose lengths fit. -/
theorem frame_of_exec_encode {p : Packet} {s : State} {F : List Byte}
    (h : exec (.encode (.value p)) s = hands s (.frame F)) : lengthsFit p = true ∧ F = frameBytes (frameOf p) := by
  cases hp : lengthsFit p with
  | true =>
    rw [exec_encode_fits (packetOf_value p s) hp] at h
    simpa [hands, State.withReply, eq_comm] using h
  | false =>
    rw [exec_encode_long (packetOf_value p s) hp] at h
    simp [hands, faults, State.withReply] at h

/-- Settles O26: the three length bytes of the frame read back as the two lengths (20_memory.md R40). -/
theorem encodeBuildsTheFrame : Obligations.EncodeBuildsTheFrame := by
  refine ⟨fun o s p ho => ⟨fun hfit => ?_, fun hlong => ?_⟩, fun _ => rfl⟩
  · have hp : lengthsFit p = true := lengthsFit_iff.mpr hfit
    obtain ⟨hdata, hopt⟩ := hfit
    refine ⟨lenHigh p.data.length, lenLow p.data.length, lenLow p.opt.length, dataLen_bytes hdata, optLen_byte hopt, ?_⟩
    exact exec_encode_fits ho hp
  · exact exec_encode_long ho (by simpa using lengthsFit_iff.not.mpr hlong)

/-! ## The round trip -/

/-- DECODE as the host issues it is DECODE as one operation (30_encoding.md R79). -/
theorem decodes_of_decodeBytes {bs : List Byte} {s t : State} (h : decodeBytes bs s = .ok t) : decodes bs s t :=
  ⟨_, _, rfl, rfl, settle_eq_next.mpr h⟩

/-- A frame with right checksums is the frame of the packet it carries. -/
theorem frameOf_framePacket {f : Frame} (h : checksumsRight f = true) : frameOf (framePacket f) = f :=
  (eq_of_beq h).symm

/-- Settles O27: DECODE takes a frame with right checksums; and a `PARSE` that reports OK was in case D, whose frame is
the frame of its packet. -/
theorem encodeThenDecodeRoundTrip : Obligations.EncodeThenDecodeRoundTrip := by
  refine ⟨fun p s hdata hopt hs => ?decodeOfEncode, fun s t hparse hok => ?encodeOfParsed⟩
  case decodeOfEncode =>
    have hp : lengthsFit p = true := lengthsFit_iff.mpr ⟨hdata, hopt⟩
    obtain ⟨t, hdecode, hpacket, hbuf, -, -⟩ :=
      decodeBytes_right (f := frameOf p) hs hp (checksumsRight_frameOf p)
    exact ⟨_, exec_encode_fits (packetOf_value p s) hp, t, decodes_of_decodeBytes hdecode, hpacket, hbuf⟩
  case encodeOfParsed =>
    obtain ⟨c, hin, rfl⟩ := exec_parse_inv hparse
    generalize hm : s.rxbuf = m at hin
    cases hin with
    | noSync | shortHeader | shortFrame | bad => cases hok
    | @good g f hg hf hright rest =>
      have hpkt : packetOf .pkt (ParseCase.after s (.good (framePacket f) (g.length + (frameBytes f).length))) =
          .ok (framePacket f) := packetOf_pkt_valid rfl
      refine ⟨g, frameBytes f, ?_, hg, ?_⟩
      · rw [exec_encode_fits hpkt hf, frameOf_framePacket hright]
      · rw [ParseCase.after_rxbuf, ParseCase.rest, hm, drop_frameBytes, List.append_assoc]

/-! ## Checksum rejection -/

@[simp] theorem flipBit_length (F : List Byte) (k j : Nat) : (flipBit F k j).length = F.length :=
  List.length_modify _ _ _

theorem flipBit_cons_zero (b : Byte) (F : List Byte) (j : Nat) : flipBit (b :: F) 0 j = (b ^^^ (1 <<< j)) :: F := rfl

theorem flipBit_cons_succ (b : Byte) (F : List Byte) (k j : Nat) : flipBit (b :: F) (k + 1) j = b :: flipBit F k j := rfl

theorem bitsDiffering_cons (a b : Byte) (A B : List Byte) :
    bitsDiffering (a :: A) (b :: B) = byteWeight (a ^^^ b) + bitsDiffering A B := rfl

/-- A byte differs from itself in no bit ... -/
theorem byteWeight_xor_self (b : Byte) : byteWeight (b ^^^ b) = 0 := by
  rw [BitVec.xor_self]
  rfl

/-- ... and in one from itself with one bit flipped. -/
theorem byteWeight_xor_flip (b : Byte) {j : Nat} (hj : j < 8) : byteWeight (b ^^^ (b ^^^ (1 <<< j))) = 1 := by
  have hone : ∀ j < 8, byteWeight (1 <<< j) = 1 := by decide
  rw [← BitVec.xor_assoc, BitVec.xor_self, BitVec.zero_xor, hone j hj]

/-- So does a sequence. -/
theorem bitsDiffering_self (F : List Byte) : bitsDiffering F F = 0 := by
  induction F with
  | nil => rfl
  | cons b F ih => rw [bitsDiffering_cons, byteWeight_xor_self, ih]

theorem bitsDiffering_flipBit {F : List Byte} {k j : Nat} (hk : k < F.length) (hj : j < 8) :
    bitsDiffering F (flipBit F k j) = 1 := by
  induction F generalizing k with
  | nil => cases hk
  | cons b F ih =>
    cases k with
    | zero => rw [flipBit_cons_zero, bitsDiffering_cons, byteWeight_xor_flip b hj, bitsDiffering_self]
    | succ k => rw [flipBit_cons_succ, bitsDiffering_cons, byteWeight_xor_self, ih (Nat.lt_of_succ_lt_succ hk)]

/-- A sequence that ends in its own checksum does not after a bit of it is flipped (40_crc_framing.md R101). -/
theorem crc8_flipBit_ne_zero {F : List Byte} {k j : Nat} (hF : crc8 F = 0) (hk : k < F.length) (hj : j < 8) :
    crc8 (flipBit F k j) ≠ 0 := by
  have hne := crcDetectsOddBitErrors F (flipBit F k j) (flipBit_length F k j).symm
    (by rw [bitsDiffering_flipBit hk hj])
  exact fun hzero => hne (hF.trans hzero.symm)

/-- The header bytes of a frame that a checksum covers, with that checksum (30_encoding.md R60). -/
def headerCode (f : Frame) : List Byte := headerBytes f.ftype f.data.length f.opt.length ++ [f.hcrc]

/-- The data and optional bytes of a frame, with their checksum. -/
def bodyCode (f : Frame) : List Byte := f.data ++ f.opt ++ [f.dcrc]

/-- A frame is the sync byte and these two. -/
theorem frameBytes_eq_codes (f : Frame) : frameBytes f = Config.sync :: (headerCode f ++ bodyCode f) := by
  simp [frameBytes, headerCode, bodyCode]

/-- Both have checksum 0 where the frame's checksums are right (R100, corner case). -/
theorem crc8_codes_of_right {f : Frame} (h : checksumsRight f = true) :
    crc8 (headerCode f) = 0 ∧ crc8 (bodyCode f) = 0 := by
  obtain ⟨hheader, hbody⟩ := (checksumsRight_iff f).mp h
  obtain ⟨happend, -⟩ := crcOfSequenceWithItsChecksumIsZero
  exact ⟨by rw [headerCode, ← hheader]; exact happend _, by rw [bodyCode, ← hbody]; exact happend _⟩

/-- Bytes as many as a frame has behind its header are those of a frame with that header. -/
theorem exists_frame_of_body (f : Frame) {B : List Byte} (hB : B.length = (bodyCode f).length) :
    ∃ f', headerCode f' = headerCode f ∧ bodyCode f' = B ∧ f'.data.length = f.data.length ∧
      f'.opt.length = f.opt.length := by
  have hlen : B.length = f.data.length + f.opt.length + 1 := by simpa [bodyCode, Nat.add_assoc] using hB
  have hdata : (B.take f.data.length).length = f.data.length := by rw [List.length_take]; omega
  have hopt : ((B.drop f.data.length).take f.opt.length).length = f.opt.length := by
    rw [List.length_take, List.length_drop]
    omega
  refine ⟨⟨f.ftype, f.hcrc, B.take f.data.length, (B.drop f.data.length).take f.opt.length,
    B[f.data.length + f.opt.length]⟩, ?_, ?_, hdata, hopt⟩
  · simp only [headerCode, hdata, hopt]
  · rw [bodyCode, ← List.take_add, List.take_concat_get', ← hlen, List.take_length]

/-- A frame with a bit flipped behind the length bytes is a frame with the same lengths, whose header or body has that
bit flipped. -/
theorem exists_frame_flipBit {f : Frame} {k : Nat} (j : Nat) (hk : 4 ≤ k) (hlt : k < (frameBytes f).length) :
    ∃ f', frameBytes f' = flipBit (frameBytes f) k j ∧ f'.data.length = f.data.length ∧
      f'.opt.length = f.opt.length ∧
      ((∃ i < (headerCode f).length, headerCode f' = flipBit (headerCode f) i j) ∨
        (∃ i < (bodyCode f).length, bodyCode f' = flipBit (bodyCode f) i j)) := by
  have hsplit : k = 4 ∨ k = 5 ∨ ∃ i, k = i + 6 :=
    if h : k < 6 then by omega else .inr (.inr ⟨k - 6, by omega⟩)
  obtain rfl | rfl | ⟨i, rfl⟩ := hsplit
  · exact ⟨{ f with ftype := f.ftype ^^^ (1 <<< j) }, rfl, rfl, rfl, .inl ⟨3, by simp [headerCode, headerBytes], rfl⟩⟩
  · exact ⟨{ f with hcrc := f.hcrc ^^^ (1 <<< j) }, rfl, rfl, rfl, .inl ⟨4, by simp [headerCode, headerBytes], rfl⟩⟩
  · obtain ⟨f', hheader, hbody, hdata, hopt⟩ := exists_frame_of_body f (flipBit_length (bodyCode f) i j)
    refine ⟨f', ?_, hdata, hopt, .inr ⟨i, ?_, hbody⟩⟩
    · rw [frameBytes_eq_codes, frameBytes_eq_codes, hheader, hbody]
      rfl
    · simp only [frameBytes_length, bodyCode, List.length_append, List.length_singleton] at hlt ⊢
      omega

/-- Settles O28: the flipped bytes are those of a frame one of whose checksums is wrong. -/
theorem singleBitFlipIsRejected : Obligations.SingleBitFlipIsRejected := by
  intro p s F k j hs hencode hk hlt hj
  obtain ⟨hp, rfl⟩ := frame_of_exec_encode hencode
  obtain ⟨f', hbytes, hdata, hopt, hflipped⟩ := exists_frame_flipBit j hk hlt
  obtain ⟨hheader, hbody⟩ := crc8_codes_of_right (checksumsRight_frameOf p)
  have hfit : lengthsFit (framePacket f') = true := by
    rw [lengthsFit_iff, framePacket, hdata, hopt]
    exact lengthsFit_iff.mp hp
  have hwrong : checksumsRight f' = false := by
    rw [← Bool.not_eq_true]
    intro hright
    obtain ⟨hheader', hbody'⟩ := crc8_codes_of_right hright
    obtain ⟨i, hi, heq⟩ | ⟨i, hi, heq⟩ := hflipped
    · exact crc8_flipBit_ne_zero hheader hi hj (heq ▸ hheader')
    · exact crc8_flipBit_ne_zero hbody hi hj (heq ▸ hbody')
  obtain ⟨t, hdecode, ⟨hstatus, hvalid, -⟩, -⟩ := decodeBytes_wrong hs hfit hwrong
  exact ⟨t, hbytes ▸ decodes_of_decodeBytes hdecode, hstatus, hvalid⟩

/-! ## Incremental parsing -/

/-- A present frame reports only with its last byte: a proper beginning of it is in an INCOMPLETE case. -/
theorem InCase.report_of_beginning {f : Frame} {m more : Memory} {c : ParseCase}
    (hf : lengthsFit (framePacket f) = true) (hright : checksumsRight f = true) (hin : InCase m c)
    (hm : m ++ more = frameBytes f) (hmore : more ≠ []) : c.report = .incomplete := by
  by_contra hc
  have hwhole := hin.append hc more
  rw [hm] at hwhole
  obtain rfl := hwhole.unique (inCase_frameBytes_right hf hright)
  obtain ⟨c', hc', hends⟩ := parseCase_endsWithin m
  obtain rfl := Except.ok.inj (hin.parseCase_eq.symm.trans hc')
  have hlong : (frameBytes f).length ≤ m.length := hends
  have hpos := List.length_pos_iff.mpr hmore
  rw [← hm, List.length_append] at hlong
  omega

/-- A beginning of a frame, if not empty, has its sync byte. -/
theorem sync_mem_of_beginning {f : Frame} {m more : Memory} (hm : m ++ more = frameBytes f) (hne : m ≠ []) :
    Config.sync ∈ m := by
  obtain ⟨b, m', rfl⟩ := List.exists_cons_of_ne_nil hne
  rw [frameBytes_cons, List.cons_append] at hm
  exact List.head_eq_of_cons_eq hm ▸ List.mem_cons_self

/-- One byte that fits, and a `PARSE` after it. -/
theorem runActions_oneByOne_cons {b : Byte} {bs : List Byte} {s : State} {c : ParseCase}
    (hfit : fitsCap s.params.rxbufCap (s.rxbuf.length + 1) = true) (hin : InCase (s.rxbuf ++ [b]) c) :
    runActions (oneByOne (b :: bs)) s =
      (runActions (oneByOne bs) (c.after (answer .done (appendBytes [b] s)))).map (fun x => (c.report :: x.1, x.2)) := by
  have hpush := exec_push_fits (bs := [b]) hfit
  have hparse := exec_parse_of_inCase (s := answer .done (appendBytes [b] s)) hin
  have hcut : oneByOne (b :: bs) = .push [b] :: .parse :: oneByOne bs := rfl
  simp only [hcut, runActions, hpush, hparse, ParseCase.reportOf_after]

/-- Where the buffer holds the beginning of a frame, the rest of it, fed one byte at a time, reports INCOMPLETE up to its
last byte and the packet there. -/
theorem runActions_oneByOne_frame {f : Frame} {bs : List Byte} {s : State} (hf : lengthsFit (framePacket f) = true)
    (hright : checksumsRight f = true) (hcap : fitsCap s.params.rxbufCap (frameBytes f).length = true)
    (hbs : bs ≠ []) (hbuf : s.rxbuf ++ bs = frameBytes f) :
    ∃ t, runActions (oneByOne bs) s = some (List.replicate (bs.length - 1) .incomplete ++
        [.packet (framePacket f) (classifyPacket (framePacket f))], t) ∧
      holdsPacket t (framePacket f) ∧ t.rxbuf = [] := by
  induction bs generalizing s with
  | nil => exact absurd rfl hbs
  | cons b bs ih =>
    have hbuf' : (s.rxbuf ++ [b]) ++ bs = frameBytes f := by simpa using hbuf
    have hfit : fitsCap s.params.rxbufCap (s.rxbuf.length + 1) = true :=
      fitsCap_mono hcap (by simp [← hbuf'])
    by_cases hlast : bs = []
    · subst hlast
      rw [List.append_nil] at hbuf'
      have hin := hbuf' ▸ inCase_frameBytes_right hf hright
      rw [runActions_oneByOne_cons hfit hin]
      refine ⟨_, rfl, ⟨rfl, rfl, rfl, rfl⟩, ?_⟩
      simp [ParseCase.rest, hbuf']
    · obtain ⟨c, hin⟩ := exists_inCase (s.rxbuf ++ [b])
      have hc := hin.report_of_beginning hf hright hbuf' hlast
      have hkept := hin.rest_of_sync hc (sync_mem_of_beginning hbuf' (by simp)) s.params.crcDiscard
      obtain ⟨t, hrun, hpacket, hempty⟩ :=
        ih (s := c.after (answer .done (appendBytes [b] s))) (by simpa using hcap) hlast
          (by simpa [hkept] using hbuf)
      refine ⟨t, ?_, hpacket, hempty⟩
      rw [runActions_oneByOne_cons hfit hin, hrun, hc]
      have hcount : (b :: bs).length - 1 = bs.length - 1 + 1 := by
        have hpos := List.length_pos_iff.mpr hlast
        simp only [List.length_cons]
        omega
      rw [hcount]
      rfl

/-- Settles O29: `RESET` leaves the empty beginning. -/
theorem oneByteAtATimeParsesTheFrame : Obligations.OneByteAtATimeParsesTheFrame := by
  intro p s s₁ F hs hencode hreset
  obtain ⟨hp, rfl⟩ := frame_of_exec_encode hencode
  obtain rfl : resetBlock s = s₁ := Host.Outcome.next.inj hreset
  exact runActions_oneByOne_frame (f := frameOf p) hp (checksumsRight_frameOf p) (fitsCap_frameBytes hs hp) nofun rfl

end Sys2Proof.Machine
end

section
/-! PROOFS. The packet family (41_packet_model.md): every packet operation reads its operand once and is a function of
the packet it names (R119); `CLASSIFY` (R120); the four radio fields (R121 to R124). -/

namespace Sys2Proof.Machine

/-! ## The packet operand -/

/-- All 26 operations of a packet operand have one shape: in a given state each is one function of the packet its operand
names. -/
theorem exec_packetOp {la : Address} {en : Bool} {mk : PktOperand → Instr} (hmk : mk ∈ packetOps la en) (s : State) :
    ∃ f, ∀ o, exec (mk o) s = onPacket o f s := by
  fin_cases hmk
  all_goals
    simp only [exec, execClassify, execRespond]
    exact ⟨_, fun _ => rfl⟩

/-- Operands that name the same packet, or no packet with the same fault, are interchangeable. -/
theorem onPacket_congr_operand {o o' : PktOperand} {s : State} (h : packetOf o s = packetOf o' s)
    (f : Packet → Except OpFault Result) : onPacket o f s = onPacket o' f s := by
  simp only [onPacket, h]

/-- Settles O36: `PKT` names no packet while PKT_VALID = 0, and otherwise the one its value names. -/
theorem pktOperandIsTheResultRegisters : Obligations.PktOperandIsTheResultRegisters := by
  intro s la en mk hmk
  obtain ⟨f, hf⟩ := exec_packetOp hmk s
  refine ⟨fun hinvalid => ?_, fun hvalid => ?_⟩
  · rw [hf]
    exact onPacket_noPacket (packetOf_pkt_invalid hinvalid)
  · rw [hf, hf]
    exact onPacket_congr_operand (packetOf_pkt_valid hvalid) f

/-! ## CLASSIFY -/

/-- `CLASSIFY` hands over the tag of the packet its operand names. -/
theorem exec_classify {o : PktOperand} {s : State} {p : Packet} (ho : packetOf o s = .ok p) :
    exec (.classify o) s = hands s (.tag (classifyPacket p)) :=
  onPacket_result (f := fun p => .ok (.tag (classifyPacket p))) ho rfl

/-- R120 tests a length before it reads a byte; a read that may find nothing says both at once. -/
theorem getElem?_eq_some_iff_getD {bs : List Byte} {i : Nat} {b : Byte} :
    bs[i]? = some b ↔ i < bs.length ∧ bs.getD i 0 = b := by
  rw [List.getElem?_eq_some_iff, ← exists_prop]
  refine exists_congr fun hi => ?_
  rw [List.getD_eq_getElem _ _ hi]

/-- The test of a BS4 teach-in query as R120 writes it, with one length test for the two bytes it reads. -/
theorem bs4Query_iff {data : List Byte} :
    (data[0]? = some 0xA5 ∧ ∃ b, data[4]? = some b ∧ b.getLsbD 3 = false) ↔
      5 ≤ data.length ∧ data.getD 0 0 = 0xA5 ∧ (data.getD 4 0).getLsbD 3 = false := by
  simp only [getElem?_eq_some_iff_getD]
  constructor
  · rintro ⟨⟨-, hrorg⟩, b, ⟨hlen, rfl⟩, hquery⟩
    exact ⟨hlen, hrorg, hquery⟩
  · rintro ⟨hlen, hrorg, hquery⟩
    exact ⟨⟨by omega, hrorg⟩, _, ⟨hlen, rfl⟩, hquery⟩

/-- The decision tree of R120. -/
theorem classifyPacket_eq_tree (p : Packet) : classifyPacket p =
    if p.ptype ≠ 0x01 then .generic
    else if 1 ≤ p.data.length ∧ p.data.getD 0 0 = 0xD4 then .uteTeachIn
    else if 5 ≤ p.data.length ∧ p.data.getD 0 0 = 0xA5 ∧ (p.data.getD 4 0).getLsbD 3 = false then .bs4TeachIn
    else .radio := by
  split
  · next htype => exact classifyPacket_generic htype
  · next htype =>
    have htype := not_not.mp htype
    split
    · next hute => exact classifyPacket_uteTeachIn htype (getElem?_eq_some_iff_getD.mpr hute)
    · next hute =>
      have hute := getElem?_eq_some_iff_getD.not.mpr hute
      split
      · next hbs4 =>
        obtain ⟨hrorg, hquery⟩ := bs4Query_iff.mpr hbs4
        exact classifyPacket_bs4TeachIn htype hrorg hquery
      · next hbs4 => exact classifyPacket_radio htype hute (bs4Query_iff.not.mpr hbs4)

/-- A `PARSE` that reports OK leaves a packet with its tag (10_state.md R23). -/
theorem holdsPacket_of_parse_ok {s t : State} (h : exec .parse s = .next t) (hok : t.status = .ok) :
    ∃ p, holdsPacket t p := by
  obtain ⟨p, k, -, rfl⟩ | ⟨st, k, hst, rfl⟩ := parseBuffer_inv (settle_eq_next.mp h)
  · exact ⟨p, rfl, rfl, rfl, rfl⟩
  · exact absurd hok hst

/-- Where the registers hold a packet with its tag, `CLASSIFY PKT` hands over that tag. -/
theorem exec_classify_pkt {s : State} {p : Packet} (h : holdsPacket s p) :
    exec (.classify .pkt) s = hands s (.tag s.pktTag) := by
  obtain ⟨-, hvalid, hpacket, htag⟩ := h
  rw [exec_classify (packetOf_pkt_valid hvalid), hpacket, htag]

/-- Settles O37: `CLASSIFY` and `PARSE` use the same function, and that is the decision tree. -/
theorem classifyPicksTheVariant : Obligations.ClassifyPicksTheVariant := by
  refine ⟨fun o s p ho => ?_, fun s t hparse hok => ?_, fun _ => rfl⟩
  · rw [exec_classify ho, classifyPacket_eq_tree]
  · obtain ⟨p, hp⟩ := holdsPacket_of_parse_ok hparse hok
    exact exec_classify_pkt hp

/-! ## The radio fields -/

/-- `RADIO.RORG` (R121), where the packet has a first data byte ... -/
theorem radioRorgOf_present {p : Packet} {b : Byte} {rest : List Byte} (htype : p.ptype = 0x01)
    (hdata : p.data = b :: rest) : radioRorgOf p = .ok (.byte b) := by
  have hbyte : p.data[0]? = some b := by simp [hdata]
  rw [radioRorgOf, if_pos htype, dataByte_ok hbyte]
  rfl

/-- ... and where it has none, or is of another type. -/
theorem radioRorgOf_absent {p : Packet} (h : p.ptype ≠ 0x01 ∨ p.data.length < 1) :
    radioRorgOf p = .error (.fieldAbsent .rorg) := by
  by_cases htype : p.ptype = 0x01
  · have hbyte : p.data[0]? = none := List.getElem?_eq_none (by simpa [htype] using h)
    simp only [radioRorgOf, if_pos htype, dataByte, hbyte, Except.map]
  · exact if_neg htype

/-- The layout of a well-formed radio packet (30_encoding.md R63): the telegram kind and the payload in `front`, the four
sender bytes, the status byte. `RadioLayout.isRadioTelegram_eq` ties it to the model's test. -/
structure RadioLayout (p : Packet) (front sender : List Byte) (st : Byte) : Prop where
  ptype : p.ptype = 0x01
  data : p.data = front ++ sender ++ [st]
  front_nonempty : 1 ≤ front.length
  sender_length : sender.length = 4

section
variable {p : Packet} {front sender : List Byte} {st : Byte}

/-- The five bytes behind `front` are the sender and the status. -/
theorem RadioLayout.data_length (h : RadioLayout p front sender st) : p.data.length = front.length + 5 := by
  simp [h.data, h.sender_length]

/-- Such a packet passes the test of `RADIO.SENDER` and `RADIO.STATUS`. -/
theorem RadioLayout.isRadioTelegram_eq (h : RadioLayout p front sender st) : isRadioTelegram p = true := by
  have hlen := h.data_length
  have hfront := h.front_nonempty
  rw [← Bool.not_eq_false, isRadioTelegram_eq_false, not_or]
  exact ⟨not_not.mpr h.ptype, by omega⟩

/-- `RADIO.SENDER` (R122) reads from the end, so it does not matter how long `front` is. -/
theorem RadioLayout.radioSenderOf_eq (h : RadioLayout p front sender st) :
    radioSenderOf p = .ok (.address sender) := by
  have hslice : senderBytes p = sender := by
    rw [senderBytes, sliceBytes, h.data_length, Nat.add_sub_cancel, h.data, List.append_assoc, List.drop_left,
      ← h.sender_length, List.take_left]
  rw [radioSenderOf, if_pos h.isRadioTelegram_eq, hslice]

/-- `RADIO.STATUS` (R124) is the last byte. -/
theorem RadioLayout.radioStatusOf_eq (h : RadioLayout p front sender st) : radioStatusOf p = .ok (.byte st) := by
  have hlast : p.data[p.data.length - 1]? = some st := by
    rw [← List.getLast?_eq_getElem?, h.data, List.getLast?_concat]
  rw [radioStatusOf, if_pos h.isRadioTelegram_eq, dataByte_ok hlast]
  rfl

end

/-- A packet that is no well-formed radio packet has neither sender (R122) ... -/
theorem radioSenderOf_absent {p : Packet} (h : p.ptype ≠ 0x01 ∨ p.data.length < 6) :
    radioSenderOf p = .error (.fieldAbsent .sender) :=
  if_neg (by simp [isRadioTelegram_eq_false.mpr h])

/-- ... nor status (R124). -/
theorem radioStatusOf_absent {p : Packet} (h : p.ptype ≠ 0x01 ∨ p.data.length < 6) :
    radioStatusOf p = .error (.fieldAbsent .status) :=
  if_neg (by simp [isRadioTelegram_eq_false.mpr h])

/-- `RADIO.DEST` (R123): a packet of type RADIO_ERP1 always has a destination, ... -/
theorem radioDestOf_radio {p : Packet} (htype : p.ptype = 0x01) : radioDestOf p = .ok (.address (destBytes p)) :=
  if_pos htype

/-- ... the four optional bytes behind the first where there are as many, ... -/
theorem destBytes_present {p : Packet} {count : Byte} {dest rest : List Byte} (hopt : p.opt = count :: (dest ++ rest))
    (hdest : dest.length = 4) : destBytes p = dest := by
  have hlen : 5 ≤ p.opt.length := by simp [hopt, hdest]
  rw [destBytes, if_pos hlen, sliceBytes, hopt, List.drop_one, List.tail_cons, ← hdest, List.take_left]

/-- ... and the broadcast address where there are not. -/
theorem destBytes_broadcast {p : Packet} (h : p.opt.length < 5) : destBytes p = [0xFF, 0xFF, 0xFF, 0xFF] :=
  if_neg (Nat.not_le.mpr h)

/-- A packet of another type has no destination. -/
theorem radioDestOf_absent {p : Packet} (htype : p.ptype ≠ 0x01) : radioDestOf p = .error (.fieldAbsent .dest) :=
  if_neg htype

/-- Settles O38: each of the four operations hands over its field of the packet or faults. -/
theorem radioFieldsAreTheirBytes : Obligations.RadioFieldsAreTheirBytes := by
  refine ⟨fun o s p ho => ⟨?rorg, ?noRorg, ?senderStatus, ?noSenderStatus, ?dest, ?broadcast, ?noDest⟩,
    fun _ => ⟨rfl, rfl, rfl, rfl⟩⟩
  case rorg => exact fun b rest htype hdata => onPacket_result ho (radioRorgOf_present htype hdata)
  case noRorg => exact fun h => onPacket_fault ho (radioRorgOf_absent h)
  case senderStatus =>
    intro front sender st htype hdata hfront hsender
    have h : RadioLayout p front sender st := ⟨htype, hdata, hfront, hsender⟩
    exact ⟨onPacket_result ho h.radioSenderOf_eq, onPacket_result ho h.radioStatusOf_eq⟩
  case noSenderStatus =>
    exact fun h => ⟨onPacket_fault ho (radioSenderOf_absent h), onPacket_fault ho (radioStatusOf_absent h)⟩
  case dest =>
    intro count dest rest htype hopt hdest
    exact onPacket_result ho ((radioDestOf_radio htype).trans (by rw [destBytes_present hopt hdest]))
  case broadcast =>
    exact fun htype h => onPacket_result ho ((radioDestOf_radio htype).trans (by rw [destBytes_broadcast h]))
  case noDest => exact fun htype => onPacket_fault ho (radioDestOf_absent htype)

end Sys2Proof.Machine
end

section
/-! PROOFS. The UTE field family (42_ute_fields.md): every extractor starts with the one test of R140; the DB6 bits (R141 to
R144), the two halves of P_UTE_TEACHIN_DECODE (R145 to R147), and the byte fields with the manufacturer (R148 to R153). -/

namespace Sys2Proof.Machine

/-! ## The common precondition -/

section
variable {p : Packet} {i : Nat} {b : Byte}

/-- Reading a byte of a UTE telegram answers that byte ... -/
theorem uteByte_ok (hute : uteTelegram p) (hb : p.data[i]? = some b) : uteByte p i = .ok b := by
  rw [uteByte, if_pos (isUteTelegram_iff.mpr hute), dataByte_ok hb]

/-- ... and on any other packet it is R140's fault, before a byte is looked at. -/
theorem uteByte_absent (hute : ¬ uteTelegram p) : uteByte p i = .error (.fieldAbsent .ute) :=
  if_neg (isUteTelegram_iff.not.mpr hute)

variable {o : PktOperand} {s : State} {f : Packet → Byte → Except OpFault Result}

/-- An extractor that reads a byte of the telegram and goes on with `f` hands over what `f` makes of that byte, ... -/
theorem onPacket_uteByte {r : Result} (ho : packetOf o s = .ok p) (hute : uteTelegram p) (hb : p.data[i]? = some b)
    (hr : f p b = .ok r) : onPacket o (fun q => uteByte q i >>= f q) s = hands s r := by
  refine onPacket_result ho ?_
  rw [uteByte_ok hute hb]
  exact hr

/-- ... and `FieldAbsent(UTE)` on a packet that is no UTE telegram, whatever `f` is. -/
theorem onPacket_uteByte_absent (ho : packetOf o s = .ok p) (hute : ¬ uteTelegram p) :
    onPacket o (fun q => uteByte q i >>= f q) s = faults s (.fieldAbsent .ute) := by
  refine onPacket_fault ho ?_
  rw [uteByte_absent hute]
  rfl

end

/-! ## The DB6 bits -/

/-- Bit 7 of a byte (R141). -/
theorem extractLsb_7_7_eq (b : Byte) : b.extractLsb 7 7 = BitVec.ofNat 1 (b.toNat / 128) := by
  rw [BitVec.extractLsb, BitVec.extractLsb', Nat.shiftRight_eq_div_pow]

/-- The inverse of bit 6 (R142). -/
theorem one_sub_extractLsb_6_6_eq (b : Byte) : 1 - b.extractLsb 6 6 = BitVec.ofNat 1 (1 - b.toNat / 64 % 2) := by
  apply BitVec.eq_of_toNat_eq
  rw [BitVec.toNat_sub, BitVec.extractLsb_toNat, Nat.shiftRight_eq_div_pow]
  change (2 - b.toNat / 64 % 2 + 1) % 2 = (1 - b.toNat / 64 % 2) % 2
  omega

/-- Bits 5 and 4 (R143). -/
theorem extractLsb_5_4_eq (b : Byte) : b.extractLsb 5 4 = BitVec.ofNat 2 (b.toNat / 16 % 4) := by
  apply BitVec.eq_of_toNat_eq
  simp [Nat.shiftRight_eq_div_pow]

/-- Bits 3 to 0 (R144). -/
theorem extractLsb_3_0_eq (b : Byte) : b.extractLsb 3 0 = BitVec.ofNat 4 (b.toNat % 16) := by
  apply BitVec.eq_of_toNat_eq
  simp

/-- Settles O39: the four operations read DB6 and cut their bits out of it. -/
theorem uteDb6BitsAreTheirFields : Obligations.UteDb6BitsAreTheirFields := by
  refine ⟨fun o s p ho => ⟨fun db6 hute hdb6 => ?_, fun hute => ?_⟩, fun _ => ⟨rfl, rfl, rfl, rfl⟩⟩
  · rw [← extractLsb_7_7_eq, ← one_sub_extractLsb_6_6_eq, ← extractLsb_5_4_eq, ← extractLsb_3_0_eq]
    exact ⟨onPacket_uteByte ho hute hdb6 rfl, onPacket_uteByte ho hute hdb6 rfl, onPacket_uteByte ho hute hdb6 rfl,
      onPacket_uteByte ho hute hdb6 rfl⟩
  · exact ⟨onPacket_uteByte_absent ho hute, onPacket_uteByte_absent ho hute, onPacket_uteByte_absent ho hute,
      onPacket_uteByte_absent ho hute⟩

/-! ## teach_in and delete -/

/-- A legal parameter meets the source's one data point (R145). -/
theorem teachInDecode_of_legal {P : Params} (hP : paramsLegal P = true) : teachInDecode P 0b10 0b0000 = (1, 0) := by
  rw [paramsLegal, Bool.and_eq_true, beq_iff_eq] at hP
  obtain ⟨-, hpoint⟩ := hP
  exact hpoint

/-- The default of R145, read off its two tables at each of their 64 entries: the flags are ignored, and `delete` is set
for request type `0b01` alone. -/
theorem teachInDecode_default : ∀ (rt : BitVec 2) (fl : BitVec 4),
    teachInDecode defaultParams rt fl = if rt = 0b01 then (0, 1) else (1, 0) := by
  decide

/-- Settles O40: both operations apply the state's parameter to the request type and the flags of DB6. -/
theorem uteTeachinAndDeleteFollowTheParameter : Obligations.UteTeachinAndDeleteFollowTheParameter := by
  refine ⟨fun o s p ho => ⟨fun db6 hute hdb6 => ?_, fun hute => ?_⟩, fun _ => teachInDecode_of_legal,
    teachInDecode_default, fun _ => ⟨rfl, rfl⟩⟩
  · exact ⟨onPacket_uteByte ho hute hdb6 rfl, onPacket_uteByte ho hute hdb6 rfl⟩
  · exact ⟨onPacket_uteByte_absent ho hute, onPacket_uteByte_absent ho hute⟩

/-! ## The byte fields -/

/-- The 11-bit manufacturer as a number (R149): bits 7 to 3 of the later byte do not count. -/
theorem manufacturer_eq (low high : Byte) :
    high.extractLsb 2 0 ++ low = BitVec.ofNat 11 (high.toNat % 8 * 256 + low.toNat) := by
  apply BitVec.eq_of_toNat_eq
  rw [BitVec.toNat_append, BitVec.extractLsb_toNat, ← Nat.shiftLeft_add_eq_or_of_lt low.isLt, Nat.shiftRight_zero,
    Nat.shiftLeft_eq, BitVec.toNat_ofNat]
  omega

/-- `UTE.MANUF` of a telegram is made of its bytes 3 and 4. -/
theorem exec_uteManuf {o : PktOperand} {s : State} {p : Packet} {low high : Byte} (ho : packetOf o s = .ok p)
    (hute : uteTelegram p) (hlow : p.data[3]? = some low) (hhigh : p.data[4]? = some high) :
    exec (.uteManuf o) s = hands s (.bits11 (high.extractLsb 2 0 ++ low)) := by
  refine onPacket_uteByte ho hute hlow ?_
  rw [uteByte_ok hute hhigh]
  rfl

/-- `UTE.CEEP` is the test of R140 alone: the constant 1 on a UTE telegram ... -/
theorem exec_uteCeep {o : PktOperand} {s : State} {p : Packet} (ho : packetOf o s = .ok p) (hute : uteTelegram p) :
    exec (.uteCeep o) s = hands s (.bit 1) :=
  onPacket_result ho (if_pos (isUteTelegram_iff.mpr hute))

/-- ... and its fault on any other packet. -/
theorem exec_uteCeep_absent {o : PktOperand} {s : State} {p : Packet} (ho : packetOf o s = .ok p)
    (hute : ¬ uteTelegram p) : exec (.uteCeep o) s = faults s (.fieldAbsent .ute) :=
  onPacket_fault ho (if_neg (isUteTelegram_iff.not.mpr hute))

/-- Settles O41: each operation reads its byte behind the test of R140, `UTE.MANUF` two of them and `UTE.CEEP` none. -/
theorem uteByteFieldsAreTheirBytes : Obligations.UteByteFieldsAreTheirBytes := by
  refine ⟨fun o s p ho => ⟨?_, fun hute => ?_⟩, fun _ => ⟨rfl, rfl, rfl, rfl, rfl, rfl⟩⟩
  · intro d1 d2 d3 d4 d5 d6 d7 rest htype hlen hdata
    have hute : uteTelegram p := ⟨htype, hlen, by rw [hdata]; rfl⟩
    have hbyte (i : Nat) : p.data[i]? = ([0xD4, d1, d2, d3, d4, d5, d6, d7] ++ rest)[i]? := by rw [hdata]
    rw [← manufacturer_eq]
    exact ⟨onPacket_uteByte ho hute (hbyte 2) rfl, exec_uteManuf ho hute (hbyte 3) (hbyte 4),
      onPacket_uteByte ho hute (hbyte 5) rfl, onPacket_uteByte ho hute (hbyte 6) rfl,
      onPacket_uteByte ho hute (hbyte 7) rfl, exec_uteCeep ho hute⟩
  · exact ⟨onPacket_uteByte_absent ho hute, onPacket_uteByte_absent ho hute, onPacket_uteByte_absent ho hute,
      onPacket_uteByte_absent ho hute, onPacket_uteByte_absent ho hute, exec_uteCeep_absent ho hute⟩

end Sys2Proof.Machine
end

section
/-! PROOFS. The BS4 field family (43_bs4_fields.md): every extractor starts with the one test of R160; the fields of one
byte and of two (R161 to R165), and `BS4.LEARN` beside `CLASSIFY` (R161). -/

namespace Sys2Proof.Machine

/-! ## The common precondition -/

section
variable {p : Packet} {i : Nat}

/-- Reading a byte of a BS4 telegram answers that byte ... -/
theorem bs4Byte_ok {b : Byte} (hbs4 : bs4Telegram p) (hb : p.data[i]? = some b) : bs4Byte p i = .ok b := by
  rw [bs4Byte, if_pos (isBs4Telegram_iff.mpr hbs4), dataByte_ok hb]

/-- ... and on any other packet it is R160's fault, before a byte is looked at. -/
theorem bs4Byte_absent (hbs4 : ¬ bs4Telegram p) : bs4Byte p i = .error (.fieldAbsent .bs4) :=
  if_neg (isBs4Telegram_iff.not.mpr hbs4)

variable {o : PktOperand} {s : State}

/-- A field made of one byte of the telegram. -/
theorem onPacket_bs4Byte {b : Byte} {f : Byte → Result} (ho : packetOf o s = .ok p) (hbs4 : bs4Telegram p)
    (hb : p.data[i]? = some b) : onPacket o (fun q => bs4Byte q i >>= fun x => .ok (f x)) s = hands s (f b) := by
  refine onPacket_result ho ?_
  rw [bs4Byte_ok hbs4 hb]
  rfl

/-- A field made of two bytes of the telegram. -/
theorem onPacket_bs4Byte_bs4Byte {j : Nat} {b c : Byte} {f : Byte → Byte → Result} (ho : packetOf o s = .ok p)
    (hbs4 : bs4Telegram p) (hb : p.data[i]? = some b) (hc : p.data[j]? = some c) :
    onPacket o (fun q => bs4Byte q i >>= fun x => bs4Byte q j >>= fun y => .ok (f x y)) s = hands s (f b c) := by
  refine onPacket_result ho ?_
  rw [bs4Byte_ok hbs4 hb, bs4Byte_ok hbs4 hc]
  rfl

/-- An extractor that starts with a byte of the telegram faults on any other packet, however it goes on. -/
theorem onPacket_bs4Byte_absent {f : Packet → Byte → Except OpFault Result} (ho : packetOf o s = .ok p)
    (hbs4 : ¬ bs4Telegram p) : onPacket o (fun q => bs4Byte q i >>= f q) s = faults s (.fieldAbsent .bs4) := by
  refine onPacket_fault ho ?_
  rw [bs4Byte_absent hbs4]
  rfl

end

/-! ## The bits -/

/-- The inverse of bit 3 (R161). -/
theorem one_sub_extractLsb_3_3_eq (b : Byte) : 1 - b.extractLsb 3 3 = BitVec.ofNat 1 (1 - b.toNat / 8 % 2) := by
  apply BitVec.eq_of_toNat_eq
  rw [BitVec.toNat_sub, BitVec.extractLsb_toNat, Nat.shiftRight_eq_div_pow]
  change (2 - b.toNat / 8 % 2 + 1) % 2 = (1 - b.toNat / 8 % 2) % 2
  omega

/-- Bits 7 to 2 (R162). -/
theorem extractLsb_7_2_eq (b : Byte) : b.extractLsb 7 2 = BitVec.ofNat 6 (b.toNat / 4) := by
  rw [BitVec.extractLsb, BitVec.extractLsb', Nat.shiftRight_eq_div_pow]

/-- The 7-bit type as a number (R163): the two low bits of the earlier byte above the five high bits of the later. -/
theorem eepType_eq (b c : Byte) :
    b.extractLsb 1 0 ++ c.extractLsb 7 3 = BitVec.ofNat 7 (b.toNat % 4 * 32 + c.toNat / 8) := by
  apply BitVec.eq_of_toNat_eq
  rw [BitVec.toNat_append, ← Nat.shiftLeft_add_eq_or_of_lt (c.extractLsb 7 3).isLt, BitVec.extractLsb_toNat,
    BitVec.extractLsb_toNat, Nat.shiftRight_zero, Nat.shiftRight_eq_div_pow, Nat.shiftLeft_eq, BitVec.toNat_ofNat]
  have hc := c.isLt
  omega

/-! ## LEARN and CLASSIFY -/

/-- The reply tells which result an operation handed over. -/
theorem hands_inj {s : State} {r r' : Result} : hands s r = hands s r' ↔ r = r' := by
  refine ⟨fun h => ?_, congrArg (hands s)⟩
  exact Reply.result.inj (congrArg State.reply (Host.Outcome.next.inj h))

/-- The inverted discriminator is 1 where bit 3 is clear. -/
theorem one_sub_extractLsb_3_3_eq_one_iff {b : Byte} : 1 - b.extractLsb 3 3 = 1 ↔ b.getLsbD 3 = false := by
  have hbit : b.extractLsb 3 3 = BitVec.ofBool (b.getLsbD 3) := by
    ext i hi
    obtain rfl : i = 0 := by omega
    simp
  rw [hbit]
  cases b.getLsbD 3 <;> decide

/-- On a BS4 telegram the decision tree of R120 is down to the discriminator. -/
theorem classifyPacket_eq_bs4TeachIn_iff {p : Packet} {b : Byte} (hbs4 : bs4Telegram p) (hb : p.data[4]? = some b) :
    classifyPacket p = .bs4TeachIn ↔ b.getLsbD 3 = false := by
  obtain ⟨htype, -, hrorg⟩ := hbs4
  refine ⟨fun htag => ?_, fun hquery => classifyPacket_bs4TeachIn htype hrorg ⟨b, hb, hquery⟩⟩
  by_contra hresponse
  have hradio : classifyPacket p = .radio := classifyPacket_radio htype (by simp [hrorg]) (by simp [hb, hresponse])
  rw [hradio] at htag
  cases htag

/-- `BS4.LEARN` of a telegram is the inverse of bit 3 of its byte 4. -/
theorem exec_bs4Learn {o : PktOperand} {s : State} {p : Packet} {b : Byte} (ho : packetOf o s = .ok p)
    (hbs4 : bs4Telegram p) (hb : p.data[4]? = some b) :
    exec (.bs4Learn o) s = hands s (.bit (1 - b.extractLsb 3 3)) :=
  onPacket_bs4Byte ho hbs4 hb

/-- `BS4.LEARN` and `CLASSIFY` test the same bit of a BS4 telegram (R161). -/
theorem exec_bs4Learn_one_iff_exec_classify {o : PktOperand} {s : State} {p : Packet} {b : Byte}
    (ho : packetOf o s = .ok p) (hbs4 : bs4Telegram p) (hb : p.data[4]? = some b) :
    exec (.bs4Learn o) s = hands s (.bit 1) ↔ exec (.classify o) s = hands s (.tag .bs4TeachIn) := by
  rw [exec_bs4Learn ho hbs4 hb, exec_classify ho, hands_inj, hands_inj, Result.bit.injEq, Result.tag.injEq,
    one_sub_extractLsb_3_3_eq_one_iff, classifyPacket_eq_bs4TeachIn_iff hbs4 hb]

/-- Settles O42: each operation cuts its bits out of one byte or two behind the test of R160. -/
theorem bs4FieldsAreTheirBits : Obligations.Bs4FieldsAreTheirBits := by
  refine ⟨fun o s p ho => ⟨?_, fun hbs4 => ?_⟩, fun _ => ⟨rfl, rfl, rfl, rfl, rfl⟩⟩
  · intro d1 d2 d3 d4 rest htype hlen hdata
    have hbs4 : bs4Telegram p := ⟨htype, hlen, by rw [hdata]; rfl⟩
    have hbyte (i : Nat) : p.data[i]? = ([0xA5, d1, d2, d3, d4] ++ rest)[i]? := by rw [hdata]
    rw [← one_sub_extractLsb_3_3_eq, ← extractLsb_7_2_eq, ← eepType_eq, ← manufacturer_eq, ← extractLsb_7_7_eq]
    exact ⟨exec_bs4Learn ho hbs4 (hbyte 4), onPacket_bs4Byte ho hbs4 (hbyte 1),
      onPacket_bs4Byte_bs4Byte ho hbs4 (hbyte 1) (hbyte 2), onPacket_bs4Byte_bs4Byte ho hbs4 (hbyte 2) (hbyte 3),
      onPacket_bs4Byte ho hbs4 (hbyte 4), exec_bs4Learn_one_iff_exec_classify ho hbs4 (hbyte 4)⟩
  · exact ⟨onPacket_bs4Byte_absent ho hbs4, onPacket_bs4Byte_absent ho hbs4, onPacket_bs4Byte_absent ho hbs4,
      onPacket_bs4Byte_absent ho hbs4, onPacket_bs4Byte_absent ho hbs4⟩

end Sys2Proof.Machine
end

section
/-! PROOFS. The responder family (44_responder.md): the packets `UTE.RESP` and `BS4.RESP` build and the tests before them
(R170 to R172), the addresses of a response (R173), and the gate of `RESPOND` (R174). -/

namespace Sys2Proof.Machine

/-! ## UTE.RESP -/

section
variable {p : Packet} {la : Address}

/-- `UTE.RESP` on a UTE telegram and an address of the right length builds the response (R171), ... -/
theorem uteRespOf_ok (hute : uteTelegram p) (hla : la.length = 4) :
    uteRespOf la p = .ok (.packet (buildUteResp p la)) := by
  rw [uteRespOf, isUteTelegram_iff.mpr hute, if_neg nofun, if_neg (not_not.mpr hla)]

/-- ... tests the telegram first, ... -/
theorem uteRespOf_notUte (hute : ¬ uteTelegram p) : uteRespOf la p = .error (.malformedRequest .ute) :=
  if_pos (Bool.eq_false_iff.mpr (isUteTelegram_iff.not.mpr hute))

/-- ... and then the address. -/
theorem uteRespOf_badAddress (hute : uteTelegram p) (hla : la.length ≠ 4) :
    uteRespOf la p = .error (.malformedRequest .addr) := by
  rw [uteRespOf, isUteTelegram_iff.mpr hute, if_neg nofun, if_pos hla]

/-- The response to a UTE telegram byte by byte: of DB6 and of the status byte nothing is left (R171). -/
theorem buildUteResp_eq {db6 d2 d3 d4 d5 d6 d7 s0 s1 s2 s3 st : Byte}
    (hdata : p.data = [0xD4, db6, d2, d3, d4, d5, d6, d7, s0, s1, s2, s3, st]) : buildUteResp p la =
      ⟨0x01, [0xD4, 0x91, d2, d3, d4, d5, d6, d7] ++ la ++ [0x00], [0x03, s0, s1, s2, s3, 0xFF, 0x00]⟩ := by
  simp [buildUteResp, respOpt, senderBytes, sliceBytes, hdata]

end

/-- Settles O43: the two tests in their order, then `buildUteResp` of the request's bytes. -/
theorem uteRespBuildsTheAnswer : Obligations.UteRespBuildsTheAnswer := by
  refine ⟨fun o s p la ho => ⟨?response, ?notUte, ?badAddress⟩, fun _ _ => rfl⟩
  case response =>
    intro db6 d2 d3 d4 d5 d6 d7 s0 s1 s2 s3 st htype hdata hla
    have hute : uteTelegram p := ⟨htype, by rw [hdata]; rfl, by rw [hdata]; rfl⟩
    rw [← buildUteResp_eq hdata]
    exact onPacket_result ho (uteRespOf_ok hute hla)
  case notUte => exact fun hute => onPacket_fault ho (uteRespOf_notUte hute)
  case badAddress => exact fun hute hla => onPacket_fault ho (uteRespOf_badAddress hute hla)

/-! ## BS4.RESP -/

section
variable {p : Packet} {la : Address}

/-- `BS4.RESP` on a teach-in query and an address of the right length builds the response (R172), ... -/
theorem bs4RespOf_ok (hbs4 : bs4Telegram p) (hquery : queryBit p.data = some false) (hla : la.length = 4) :
    bs4RespOf la p = .ok (.packet (buildBs4Resp p la)) := by
  rw [bs4RespOf, isBs4Telegram_iff.mpr hbs4, if_neg nofun, if_neg (not_not.mpr hquery), if_neg (not_not.mpr hla)]

/-- ... tests the telegram first, ... -/
theorem bs4RespOf_notBs4 (hbs4 : ¬ bs4Telegram p) : bs4RespOf la p = .error (.malformedRequest .bs4) :=
  if_pos (Bool.eq_false_iff.mpr (isBs4Telegram_iff.not.mpr hbs4))

/-- ... then the query bit, ... -/
theorem bs4RespOf_notAQuery (hbs4 : bs4Telegram p) (hquery : queryBit p.data ≠ some false) :
    bs4RespOf la p = .error (.malformedRequest .notAQuery) := by
  rw [bs4RespOf, isBs4Telegram_iff.mpr hbs4, if_neg nofun, if_pos hquery]

/-- ... and then the address. -/
theorem bs4RespOf_badAddress (hbs4 : bs4Telegram p) (hquery : queryBit p.data = some false) (hla : la.length ≠ 4) :
    bs4RespOf la p = .error (.malformedRequest .addr) := by
  rw [bs4RespOf, isBs4Telegram_iff.mpr hbs4, if_neg nofun, if_neg (not_not.mpr hquery), if_pos hla]

/-- The response to a BS4 query byte by byte: no bit of byte 4 survives (R172). -/
theorem buildBs4Resp_eq {d1 d2 d3 d4 s0 s1 s2 s3 st : Byte}
    (hdata : p.data = [0xA5, d1, d2, d3, d4, s0, s1, s2, s3, st]) : buildBs4Resp p la =
      ⟨0x01, [0xA5, d1, d2, d3, 0xF0] ++ la ++ [0x00], [0x03, s0, s1, s2, s3, 0xFF, 0x00]⟩ := by
  simp [buildBs4Resp, respOpt, senderBytes, sliceBytes, hdata]

end

/-- Settles O44: the three tests in their order, then `buildBs4Resp` of the request's bytes. -/
theorem bs4RespBuildsTheAnswer : Obligations.Bs4RespBuildsTheAnswer := by
  refine ⟨fun o s p la ho => ⟨?telegram, fun hbs4 => onPacket_fault ho (bs4RespOf_notBs4 hbs4)⟩, fun _ _ => rfl⟩
  intro d1 d2 d3 d4 s0 s1 s2 s3 st htype hdata
  have hbs4 : bs4Telegram p := ⟨htype, by rw [hdata]; rfl, by rw [hdata]; rfl⟩
  have hbit : queryBit p.data = some (d4.getLsbD 3) := by rw [hdata]; rfl
  refine ⟨fun hquery hla => ?response, fun hnot => ?notAQuery, fun hquery hla => ?badAddress⟩
  case response =>
    rw [← buildBs4Resp_eq hdata]
    exact onPacket_result ho (bs4RespOf_ok hbs4 (hbit.trans (congrArg some hquery)) hla)
  case notAQuery => exact onPacket_fault ho (bs4RespOf_notAQuery hbs4 (by simp [hbit, hnot]))
  case badAddress => exact onPacket_fault ho (bs4RespOf_badAddress hbs4 (hbit.trans (congrArg some hquery)) hla)

/-! ## The gate of RESPOND -/

section
variable {p : Packet} {la : Address}

/-- The UTE half of the gate is the test of R140: the tag says the type and the first byte. -/
theorem uteGate_iff : classifyPacket p = .uteTeachIn ∧ p.data.length = 13 ↔ uteTelegram p := by
  constructor
  · rintro ⟨htag, hlen⟩
    unfold classifyPacket at htag
    split_ifs at htag with htype hute
    exact ⟨not_not.mp htype, hlen, hute⟩
  · rintro ⟨htype, hlen, hute⟩
    exact ⟨classifyPacket_uteTeachIn htype hute, hlen⟩

/-- The BS4 half is the test of R160 with the query bit. -/
theorem bs4Gate_iff :
    classifyPacket p = .bs4TeachIn ∧ p.data.length = 10 ↔ bs4Telegram p ∧ queryBit p.data = some false := by
  constructor
  · rintro ⟨htag, hlen⟩
    unfold classifyPacket at htag
    split_ifs at htag with htype hute hbs4
    obtain ⟨hrorg, hquery⟩ := hbs4
    exact ⟨⟨not_not.mp htype, hlen, hrorg⟩, hquery⟩
  · rintro ⟨⟨htype, hlen, hrorg⟩, hquery⟩
    exact ⟨classifyPacket_bs4TeachIn htype hrorg (queryBit_eq_some_iff.mp hquery), hlen⟩

/-- `RESPOND` in the words of the two telegram tests (R174): the response to a UTE telegram, ... -/
theorem respondOf_ute (hute : uteTelegram p) (hla : la.length = 4) :
    respondOf true la p = .packet (buildUteResp p la) := by
  obtain ⟨htag, hlen⟩ := uteGate_iff.mpr hute
  rw [respondOf, if_neg nofun, if_pos ⟨htag, hlen, hla⟩]

/-- ... the response to a BS4 query, ... -/
theorem respondOf_bs4 (hbs4 : bs4Telegram p) (hquery : queryBit p.data = some false) (hla : la.length = 4) :
    respondOf true la p = .packet (buildBs4Resp p la) := by
  obtain ⟨htag, hlen⟩ := bs4Gate_iff.mpr ⟨hbs4, hquery⟩
  rw [respondOf, if_neg nofun, if_neg (by simp [htag]), if_pos ⟨htag, hlen, hla⟩]

/-- ... and all it can do: hand over `none`, or one of the two responses where its half of the gate is open. -/
theorem respondOf_inv (en : Bool) (la : Address) (p : Packet) :
    respondOf en la p = .absent ∨
    (en = true ∧ la.length = 4 ∧ uteTelegram p ∧ respondOf en la p = .packet (buildUteResp p la)) ∨
    (en = true ∧ la.length = 4 ∧ (bs4Telegram p ∧ queryBit p.data = some false) ∧
      respondOf en la p = .packet (buildBs4Resp p la)) := by
  unfold respondOf
  split_ifs with hen hute hbs4
  · exact .inl rfl
  · obtain ⟨htag, hlen, hla⟩ := hute
    exact .inr (.inl ⟨Bool.eq_true_of_not_eq_false hen, hla, uteGate_iff.mp ⟨htag, hlen⟩, rfl⟩)
  · obtain ⟨htag, hlen, hla⟩ := hbs4
    exact .inr (.inr ⟨Bool.eq_true_of_not_eq_false hen, hla, bs4Gate_iff.mp ⟨htag, hlen⟩, rfl⟩)
  · exact .inl rfl

/-- `RESPOND` never faults on a packet: it hands over a response or `none`. -/
theorem exec_respond {o : PktOperand} {s : State} (ho : packetOf o s = .ok p) (en : Bool) (la : Address) :
    exec (.respond o en la) s = hands s (respondOf en la p) :=
  onPacket_result (f := fun p => .ok (respondOf en la p)) ho rfl

end

/-- Settles O45: an open gate leads to the same response as the encoder's, and a response to an open gate. -/
theorem respondGatesTheEncoders : Obligations.RespondGatesTheEncoders := by
  refine ⟨fun o s p en la ho => ⟨?ute, ?bs4, fun hclosed => ?closed⟩, fun _ _ _ => rfl⟩
  case ute =>
    rintro rfl hute hla
    have hresponse := exec_respond ho true la
    rw [respondOf_ute hute hla] at hresponse
    exact ⟨hresponse.trans (onPacket_result ho (uteRespOf_ok hute hla)).symm, _, hresponse⟩
  case bs4 =>
    rintro rfl hbs4 hquery hla
    have hquery := queryBit_eq_some_iff.mpr hquery
    have hresponse := exec_respond ho true la
    rw [respondOf_bs4 hbs4 hquery hla] at hresponse
    exact ⟨hresponse.trans (onPacket_result ho (bs4RespOf_ok hbs4 hquery hla)).symm, _, hresponse⟩
  case closed =>
    rw [exec_respond ho]
    rw [← queryBit_eq_some_iff] at hclosed
    obtain habsent | ⟨rfl, hla, hute, -⟩ | ⟨rfl, hla, hbs4, -⟩ := respondOf_inv en la p
    · rw [habsent]
    · simp [hla, hute] at hclosed
    · simp [hla, hbs4] at hclosed

/-! ## The addresses of a response -/

/-- What the two responses share (R170): `la` as the sender and RESP_STATUS at the end of the data, and `resp_opt`. -/
structure IsResponse (p : Packet) (la : Address) (r : Packet) : Prop where
  layout : ∃ front, RadioLayout r front la Config.respStatus
  opt : r.opt = respOpt p

section
variable {p r : Packet} {la : Address}

/-- The packet `UTE.RESP` builds is a response, ... -/
theorem isResponse_buildUteResp (hla : la.length = 4) : IsResponse p la (buildUteResp p la) :=
  ⟨⟨_, rfl, rfl, by simp; omega, hla⟩, rfl⟩

/-- ... and so is the one `BS4.RESP` builds. -/
theorem isResponse_buildBs4Resp (hla : la.length = 4) : IsResponse p la (buildBs4Resp p la) :=
  ⟨⟨_, rfl, rfl, by simp; omega, hla⟩, rfl⟩

/-- `RESPOND` hands over nothing but responses. -/
theorem isResponse_of_respondOf {en : Bool} (h : respondOf en la p = .packet r) : IsResponse p la r := by
  obtain habsent | ⟨-, hla, -, hresponse⟩ | ⟨-, hla, -, hresponse⟩ := respondOf_inv en la p
  · cases habsent.symm.trans h
  · cases hresponse.symm.trans h
    exact isResponse_buildUteResp hla
  · cases hresponse.symm.trans h
    exact isResponse_buildBs4Resp hla

/-- The destination of a response is the request's sender (R173), where the request is long enough to have one. -/
theorem IsResponse.destBytes_eq (h : IsResponse p la r) (hlen : 6 ≤ p.data.length) : destBytes r = senderBytes p :=
  destBytes_present h.opt (by simp [senderBytes, sliceBytes]; omega)

/-- `RADIO.SENDER` hands over the sender bytes of a packet of at least six data bytes (R122), and nothing else. -/
theorem eq_senderBytes_of_exec_radioSender {s : State} {sender : Address}
    (h : exec (.radioSender (.value p)) s = hands s (.address sender)) :
    6 ≤ p.data.length ∧ sender = senderBytes p := by
  by_cases habsent : p.ptype ≠ 0x01 ∨ p.data.length < 6
  · have hfault : exec (.radioSender (.value p)) s = faults s (.fieldAbsent .sender) :=
      onPacket_fault (packetOf_value p s) (radioSenderOf_absent habsent)
    rw [hfault] at h
    simp [hands, faults, State.withReply] at h
  · have hradio : isRadioTelegram p = true := by simpa using isRadioTelegram_eq_false.not.mpr habsent
    have hsender : exec (.radioSender (.value p)) s = hands s (.address (senderBytes p)) :=
      onPacket_result (packetOf_value p s) (if_pos hradio)
    rw [hsender, hands_inj, Result.address.injEq] at h
    exact ⟨not_lt.mp (not_or.mp habsent).2, h.symm⟩

end

/-- Settles O46: what `RESPOND` hands over is a response, whose layout fixes the sender and the status and whose optional
bytes fix the destination. -/
theorem responsesGoFromLocalAddressToSender : Obligations.ResponsesGoFromLocalAddressToSender := by
  intro p r la sender s hrespond hsender
  rw [exec_respond (packetOf_value p s), hands_inj] at hrespond
  have hresponse := isResponse_of_respondOf hrespond
  obtain ⟨front, hlayout⟩ := hresponse.layout
  obtain ⟨hlen, rfl⟩ := eq_senderBytes_of_exec_radioSender hsender
  rw [← hresponse.destBytes_eq hlen]
  have hr := packetOf_value r s
  exact ⟨onPacket_result hr hlayout.radioSenderOf_eq, onPacket_result hr (radioDestOf_radio hlayout.ptype),
    onPacket_result hr hlayout.radioStatusOf_eq⟩

end Sys2Proof.Machine
end

section
/-! PROOFS. The exceptions family (60_exceptions.md): which operation raises which fault and why (R204), that a fault
leaves no trace (R205), the numeric codes (R203, R204), and the auto-answer end to end (R214). -/

namespace Sys2Proof.Machine

/-! ## Which operations can report a fault -/

/-- `PARSE` tells the host the status it leaves (R200). -/
theorem parseBuffer_reply {s t : State} (h : parseBuffer s = .ok t) : t.reply = .result (.status t.status) := by
  obtain ⟨p, k, -, rfl⟩ | ⟨st, k, -, rfl⟩ := parseBuffer_inv h
  · rfl
  · rfl

/-- So `PARSE` cannot fault, ... -/
theorem parseBuffer_reply_ne_fault {s t : State} (h : parseBuffer s = .ok t) (f : OpFault) : t.reply ≠ .fault f := by
  simp [parseBuffer_reply h]

/-- ... nor can DECODE, whose last operation is a `PARSE` (30_encoding.md R79). -/
theorem decodeBytes_reply_ne_fault {bs : List Byte} {s t : State} (h : decodeBytes bs s = .ok t) (f : OpFault) :
    t.reply ≠ .fault f :=
  parseBuffer_reply_ne_fault h f

/-- A VARIANT row's packet fits a frame, so `ENCODE` does not fault and its DECODE reports a status (R74). -/
theorem decodePacket_reply_ne_fault {tag : Tag} {p : Packet} {s t : State} (hadmits : variantAdmits tag p = true)
    (h : decodePacket p s = .ok t) (f : OpFault) : t.reply ≠ .fault f := by
  obtain ⟨hp, -⟩ := variantAdmits_iff.mp hadmits
  simp only [decodePacket, encodePacket, if_pos hp] at h
  exact decodeBytes_reply_ne_fault h f

/-- `PUSH` reports a fault only of bytes that do not fit, and then this one (40_crc_framing.md R102). -/
theorem pushBytes_reply_eq_fault {bs : List Byte} {s : State} {f : OpFault} (h : (pushBytes bs s).reply = .fault f) :
    fitsCap s.params.rxbufCap (s.rxbuf.length + bs.length) = false ∧ f = .bufferFull s.rxbuf.length bs.length := by
  cases hfit : fitsCap s.params.rxbufCap (s.rxbuf.length + bs.length) with
  | true => simp [pushBytes_fits hfit] at h
  | false =>
    rw [pushBytes_full hfit, raise_reply, Reply.fault.injEq] at h
    exact ⟨rfl, h.symm⟩

/-- Settles O12: of all an instruction can do, only a `PUSH` that does not fit and a bare reply report a fault, and both
change the reply alone. -/
theorem faultsLeaveNoTrace : Obligations.FaultsLeaveNoTrace := by
  refine ⟨fun i s t f h hfault => ?_, fun _ _ _ _ hcommands hdecode => step_illegalOp hcommands hdecode⟩
  cases exec_effect h with
  | reset => cases hfault
  | push bs =>
    obtain ⟨hfull, rfl⟩ := pushBytes_reply_eq_fault hfault
    exact pushBytes_full hfull
  | parse hparse => exact absurd hfault (parseBuffer_reply_ne_fault hparse f)
  | decode bs _ hdecode => exact absurd hfault (decodeBytes_reply_ne_fault hdecode f)
  | reply r => exact congrArg s.withReply hfault

/-! ## What an extractor can raise -/

/-- A read of a packet that raises nothing but `FieldAbsent` of `w`, and that only where the packet lacks `w`. -/
def LacksOnly {α : Type} (w : AbsentField) (p : Packet) (x : Except OpFault α) : Prop :=
  ∀ e, x = .error e → e = .fieldAbsent w ∧ fieldMissing w p

namespace LacksOnly

variable {α β : Type} {w : AbsentField} {p : Packet} {i : Nat}

theorem ok (a : α) : LacksOnly w p (.ok a) := nofun

theorem bind {x : Except OpFault α} {f : α → Except OpFault β} (hx : LacksOnly w p x)
    (hf : ∀ a, LacksOnly w p (f a)) : LacksOnly w p (x >>= f) := by
  cases x with
  | ok a => exact hf a
  | error e =>
    rintro _ ⟨⟩
    exact hx e rfl

theorem map {x : Except OpFault α} (hx : LacksOnly w p x) (f : α → β) : LacksOnly w p (x.map f) := by
  cases x with
  | ok a => exact ok (f a)
  | error e =>
    rintro _ ⟨⟩
    exact hx e rfl

/-- The form of every extractor's own test: `FieldAbsent` where it fails. -/
theorem guarded {c : Prop} [Decidable c] {x : Except OpFault α} (hx : c → LacksOnly w p x)
    (hmissing : ¬ c → fieldMissing w p) : LacksOnly w p (if c then x else .error (.fieldAbsent w)) := by
  split
  · next hc => exact hx hc
  · next hc =>
    rintro _ ⟨⟩
    exact ⟨rfl, hmissing hc⟩

theorem of_dataByte (hmissing : p.data.length ≤ i → fieldMissing w p) : LacksOnly w p (dataByte p i w) := by
  intro e h
  obtain ⟨hlen, he⟩ := dataByte_eq_error h
  exact ⟨he, hmissing hlen⟩

theorem of_uteByte (hi : i < 13) : LacksOnly .ute p (uteByte p i) := fun _ h => (uteByte_eq_error hi h).symm

theorem of_bs4Byte (hi : i < 10) : LacksOnly .bs4 p (bs4Byte p i) := fun _ h => (bs4Byte_eq_error hi h).symm

theorem of_radioRorg : LacksOnly .rorg p (radioRorgOf p) := by
  refine guarded (fun _ => map (of_dataByte fun hlen => ?_) _) .inl
  exact .inr (by omega)

theorem of_radioSender : LacksOnly .sender p (radioSenderOf p) :=
  guarded (fun _ => ok _) fun h => isRadioTelegram_eq_false.mp (Bool.eq_false_iff.mpr h)

theorem of_radioDest : LacksOnly .dest p (radioDestOf p) := guarded (fun _ => ok _) id

/-- Only a packet of no data bytes has no last one, and R124 tests the length first. -/
theorem of_radioStatus : LacksOnly .status p (radioStatusOf p) := by
  refine guarded (fun _ => map (of_dataByte fun hlen => ?_) _) fun h =>
    isRadioTelegram_eq_false.mp (Bool.eq_false_iff.mpr h)
  exact .inr (by omega)

theorem of_uteCeep : LacksOnly .ute p (uteCeepOf p) := guarded (fun _ => ok _) isUteTelegram_iff.not.mp

end LacksOnly

/-! ## The causes of the faults -/

/-- R204's table: each fault an instruction can raise from a state, with its information and its cause, in the model's
own tests. `FaultCause.of_exec` ties it to `exec`. -/
inductive FaultCause (s : State) : Instr → OpFault → Prop where
  | bufferFull {bs : List Byte} (hfull : fitsCap s.params.rxbufCap (s.rxbuf.length + bs.length) = false) :
      FaultCause s (.push bs) (.bufferFull s.rxbuf.length bs.length)
  | invalidPacket {o : PktOperand} {p : Packet} (ho : packetOf o s = .ok p) (hlong : lengthsFit p = false) :
      FaultCause s (.encode o) (.invalidPacket p.data.length p.opt.length)
  | fieldAbsent {w : AbsentField} {mk : PktOperand → Instr} {o : PktOperand} {p : Packet} (hmk : mk ∈ extractorsOf w)
      (ho : packetOf o s = .ok p) (hmissing : fieldMissing w p) : FaultCause s (mk o) (.fieldAbsent w)
  | uteRequest {r : RequestTest} {o : PktOperand} {la : Address} {p : Packet} (ho : packetOf o s = .ok p)
      (hfails : uteRequestFails r p la) : FaultCause s (.uteResp o la) (.malformedRequest r)
  | bs4Request {r : RequestTest} {o : PktOperand} {la : Address} {p : Packet} (ho : packetOf o s = .ok p)
      (hfails : bs4RequestFails r p la) : FaultCause s (.bs4Resp o la) (.malformedRequest r)
  | noPacket {la : Address} {en : Bool} {mk : PktOperand → Instr} (hmk : mk ∈ packetOps la en)
      (hinvalid : s.pktValid = false) : FaultCause s (mk .pkt) .noPacket

section
variable {s t : State} {f : OpFault} {o : PktOperand} {mk : PktOperand → Instr} {g : Packet → Except OpFault Result}

/-- An operation of a packet operand has a cause for its fault where it has one for those of its own: the other is
`NoPacket`. -/
theorem FaultCause.of_packetOp {la : Address} {en : Bool} (hmk : mk ∈ packetOps la en)
    (hown : ∀ p, packetOf o s = .ok p → g p = .error f → FaultCause s (mk o) f) (h : onPacket o g s = .next t)
    (hfault : t.reply = .fault f) : FaultCause s (mk o) f := by
  obtain ⟨p, r, -, -, rfl⟩ | ⟨p, e, ho, he, rfl⟩ | ⟨rfl, hinvalid, rfl⟩ := onPacket_inv h
  · cases hfault
  · obtain rfl : e = f := Reply.fault.inj hfault
    exact hown p ho he
  · obtain rfl : .noPacket = f := Reply.fault.inj hfault
    exact .noPacket hmk hinvalid

/-- Every extractor takes a packet operand. -/
theorem extractorsOf_subset_packetOps (w : AbsentField) (la : Address) (en : Bool) :
    extractorsOf w ⊆ packetOps la en := by
  cases w <;> simp [extractorsOf, packetOps]

/-- An extractor whose reads raise nothing but its `FieldAbsent`. -/
theorem FaultCause.of_extractor {w : AbsentField} (hmk : mk ∈ extractorsOf w) (hg : ∀ p, LacksOnly w p (g p))
    (h : onPacket o g s = .next t) (hfault : t.reply = .fault f) : FaultCause s (mk o) f := by
  refine .of_packetOp (extractorsOf_subset_packetOps w [] true hmk) (fun p ho he => ?_) h hfault
  obtain ⟨rfl, hmissing⟩ := hg p f he
  exact .fieldAbsent hmk ho hmissing

end

/-- `ENCODE` raises its fault on a packet too long for a frame, and no other (40_crc_framing.md R104). -/
theorem encodePacket_map_eq_error {p : Packet} {e : OpFault} (h : (encodePacket p).map Result.frame = .error e) :
    lengthsFit p = false ∧ e = .invalidPacket p.data.length p.opt.length := by
  unfold encodePacket at h
  split at h
  · cases h
  · next hlong =>
    cases h
    exact ⟨Bool.eq_false_iff.mpr hlong, rfl⟩

/-- A well-formed instruction raises a fault for its cause only. -/
theorem FaultCause.of_exec {i : Instr} {s t : State} {f : OpFault} (hwf : i.wf = true) (h : exec i s = .next t)
    (hfault : t.reply = .fault f) : FaultCause s i f := by
  cases i with
  | reset | crc8 bs => cases h; cases hfault
  | push bs =>
    cases h
    obtain ⟨hfull, rfl⟩ := pushBytes_reply_eq_fault hfault
    exact .bufferFull hfull
  | parse => exact absurd hfault (parseBuffer_reply_ne_fault (settle_eq_next.mp h) f)
  | frameEsp3 F => exact absurd hfault (decodeBytes_reply_ne_fault (settle_eq_next.mp h) f)
  | variantGeneric p | variantUteTeachIn p | variantBs4TeachIn p | variantRadio p =>
    exact absurd hfault (decodePacket_reply_ne_fault hwf (settle_eq_next.mp h) f)
  | encode o =>
    refine .of_packetOp (mk := .encode) (la := []) (en := true) (by simp [packetOps]) (fun p ho he => ?_) h hfault
    obtain ⟨hlong, rfl⟩ := encodePacket_map_eq_error he
    exact .invalidPacket ho hlong
  | classify o =>
    exact .of_packetOp (g := fun p => .ok (.tag (classifyPacket p))) (mk := .classify) (la := []) (en := true)
      (by simp [packetOps]) (fun _ _ => nofun) h hfault
  | respond o en la =>
    exact .of_packetOp (g := fun p => .ok (respondOf en la p)) (mk := (.respond · en la)) (la := la) (en := en)
      (by simp [packetOps]) (fun _ _ => nofun) h hfault
  | uteResp o la =>
    refine .of_packetOp (mk := (.uteResp · la)) (la := la) (en := true) (by simp [packetOps])
      (fun p ho he => ?_) h hfault
    obtain ⟨r, rfl, hfails⟩ := uteRespOf_eq_error he
    exact .uteRequest ho hfails
  | bs4Resp o la =>
    refine .of_packetOp (mk := (.bs4Resp · la)) (la := la) (en := true) (by simp [packetOps])
      (fun p ho he => ?_) h hfault
    obtain ⟨r, rfl, hfails⟩ := bs4RespOf_eq_error he
    exact .bs4Request ho hfails
  | radioRorg o => exact .of_extractor (w := .rorg) (by simp [extractorsOf]) (fun _ => .of_radioRorg) h hfault
  | radioSender o => exact .of_extractor (w := .sender) (by simp [extractorsOf]) (fun _ => .of_radioSender) h hfault
  | radioDest o => exact .of_extractor (w := .dest) (by simp [extractorsOf]) (fun _ => .of_radioDest) h hfault
  | radioStatus o => exact .of_extractor (w := .status) (by simp [extractorsOf]) (fun _ => .of_radioStatus) h hfault
  | uteCeep o => exact .of_extractor (w := .ute) (by simp [extractorsOf]) (fun _ => .of_uteCeep) h hfault
  | uteManuf o =>
    exact .of_extractor (w := .ute) (by simp [extractorsOf])
      (fun _ => .bind (.of_uteByte (by decide)) fun _ => .bind (.of_uteByte (by decide)) fun _ => .ok _) h hfault
  | uteBidir o | uteRespexp o | uteReqtype o | uteFlags o | uteTeachin o | uteDelete o | uteNchan o | uteEeprorg o
  | uteFunc o | uteType o =>
    exact .of_extractor (w := .ute) (by simp [extractorsOf])
      (fun _ => .bind (.of_uteByte (by decide)) fun _ => .ok _) h hfault
  | bs4Type o | bs4Manuf o =>
    exact .of_extractor (w := .bs4) (by simp [extractorsOf])
      (fun _ => .bind (.of_bs4Byte (by decide)) fun _ => .bind (.of_bs4Byte (by decide)) fun _ => .ok _) h hfault
  | bs4Learn o | bs4Func o | bs4Ceep o =>
    exact .of_extractor (w := .bs4) (by simp [extractorsOf])
      (fun _ => .bind (.of_bs4Byte (by decide)) fun _ => .ok _) h hfault

/-- Bytes do not fit only a finite capacity, and one that is smaller (00_scope.md R5, D3). -/
theorem fitsCap_eq_false_iff {cap : Option Nat} {n : Nat} : fitsCap cap n = false ↔ ∃ c, cap = some c ∧ c < n := by
  cases cap <;> simp [fitsCap]

/-- A packet is too long for a frame where one of its parts is (40_crc_framing.md R104). -/
theorem lengthsFit_eq_false_iff {p : Packet} :
    lengthsFit p = false ↔ Config.maxDataLen < p.data.length ∨ Config.maxOptLen < p.opt.length := by
  rw [← Bool.not_eq_true, lengthsFit_iff, not_and_or, not_le, not_le]

/-- Settles O14: each cause in the words of the statement. -/
theorem faultsComeFromTheirCauses : Obligations.FaultsComeFromTheirCauses := by
  intro i s t f hwf h hfault
  cases FaultCause.of_exec hwf h hfault with
  | bufferFull hfull => exact ⟨_, rfl, rfl, rfl, fitsCap_eq_false_iff.mp hfull⟩
  | invalidPacket ho hlong => exact ⟨_, _, rfl, ho, rfl, rfl, lengthsFit_eq_false_iff.mp hlong⟩
  | fieldAbsent hmk ho hmissing => exact ⟨_, hmk, _, _, rfl, ho, hmissing⟩
  | uteRequest ho hfails => exact ⟨_, _, _, ho, .inl ⟨rfl, hfails⟩⟩
  | bs4Request ho hfails => exact ⟨_, _, _, ho, .inr ⟨rfl, hfails⟩⟩
  | noPacket hmk hinvalid => exact ⟨hinvalid, _, _, _, hmk, rfl⟩

/-! ## The auto-answer end to end -/

/-- A slice has at most the length asked for. -/
theorem sliceBytes_length_le (bs : List Byte) (i n : Nat) : (sliceBytes bs i n).length ≤ n := List.length_take_le _ _

/-- `resp_opt` is no longer than an ERP1 optional part (44_responder.md R170). -/
theorem respOpt_length_le (p : Packet) : (respOpt p).length ≤ 7 := by
  have hsender : (senderBytes p).length ≤ 4 := sliceBytes_length_le _ _ _
  simp only [respOpt, List.length_append, List.length_cons, List.length_nil]
  omega

/-- The packet `UTE.RESP` builds is far below the bounds of a frame (R171), ... -/
theorem lengthsFit_buildUteResp (p : Packet) {la : Address} (hla : la.length = 4) :
    lengthsFit (buildUteResp p la) = true := by
  have hopt := respOpt_length_le p
  have hrorg := sliceBytes_length_le p.data 0 1
  have hecho := sliceBytes_length_le p.data 2 6
  simp only [lengthsFit_iff, Config.maxDataLen, Config.maxOptLen, buildUteResp, List.length_append, List.length_cons,
    List.length_nil]
  omega

/-- ... so is the one `BS4.RESP` builds (R172), ... -/
theorem lengthsFit_buildBs4Resp (p : Packet) {la : Address} (hla : la.length = 4) :
    lengthsFit (buildBs4Resp p la) = true := by
  have hopt := respOpt_length_le p
  have hrorg := sliceBytes_length_le p.data 0 1
  have hecho := sliceBytes_length_le p.data 1 3
  simp only [lengthsFit_iff, Config.maxDataLen, Config.maxOptLen, buildBs4Resp, List.length_append, List.length_cons,
    List.length_nil]
  omega

/-- ... and `RESPOND` hands over no other packet (R174). -/
theorem lengthsFit_of_respondOf {en : Bool} {la : Address} {p r : Packet} (h : respondOf en la p = .packet r) :
    lengthsFit r = true := by
  obtain habsent | ⟨-, hla, -, hresponse⟩ | ⟨-, hla, -, hresponse⟩ := respondOf_inv en la p
  · cases habsent.symm.trans h
  · cases hresponse.symm.trans h
    exact lengthsFit_buildUteResp p hla
  · cases hresponse.symm.trans h
    exact lengthsFit_buildBs4Resp p hla

/-- Settles O49: what `RESPOND` hands over fits a frame, and so it survives the round trip of R105. -/
theorem answerSurvivesTheWire : Obligations.AnswerSurvivesTheWire := by
  intro p r la s hs hrespond
  rw [exec_respond (packetOf_value p s), hands_inj] at hrespond
  obtain ⟨hdata, hopt⟩ := lengthsFit_iff.mp (lengthsFit_of_respondOf hrespond)
  obtain ⟨hroundTrip, -⟩ := encodeThenDecodeRoundTrip
  exact hroundTrip r s hdata hopt hs

/-! ## The numeric codes -/

/-- Code 2 is no status (R203). -/
theorem statusCode_ne_two (st : Status) : statusCode st ≠ 2 := by
  cases st <;> decide

/-- Settles O15: the codes as the three tables give them. -/
theorem numericCodes : Obligations.NumericCodes := by
  refine ⟨⟨rfl, rfl, rfl, statusCode_ne_two⟩, ⟨rfl, rfl, rfl, rfl⟩, fun _ _ _ _ _ => ?_⟩
  exact ⟨rfl, rfl, rfl, rfl, rfl, rfl⟩

end Sys2Proof.Machine
end

section
/-! PROOFS. The reset and hazards family (70_reset_and_hazards.md): `RESET` and power-on (R230), a response taken for a
request (R244, R245), and the full buffer with an unfinished frame (R248). -/

namespace Sys2Proof.Machine

/-! ## A full buffer with an unfinished frame -/

/-- The hazard of R248: RXBUF is as long as its capacity, has a sync byte, and is in a case of R103 that reports
INCOMPLETE. The four facts speak of RXBUF and RXBUF_CAP only. -/
structure Stuck (cap : Nat) (s : State) : Prop where
  capacity : s.params.rxbufCap = some cap
  full : s.rxbuf.length = cap
  sync_mem : Config.sync ∈ s.rxbuf
  unfinished : ∃ c, InCase s.rxbuf c ∧ c.report = .incomplete

section
variable {cap : Nat} {s t : State}

/-- A `PARSE` that reports INCOMPLETE shows that the frame at the sync byte of a full buffer is unfinished. -/
theorem stuck_of_parse (hcap : s.params.rxbufCap = some cap) (hfull : s.rxbuf.length = cap)
    (hsync : Config.sync ∈ s.rxbuf) (hparse : exec .parse s = .next t) (hst : t.status = .incomplete) :
    Stuck cap s := by
  obtain ⟨c, hin, rfl⟩ := exec_parse_inv hparse
  exact ⟨hcap, hfull, hsync, c, hin, (c.status_after_eq_incomplete s).mp hst⟩

/-- Whatever keeps RXBUF and the parameters keeps the block stuck. -/
theorem Stuck.of_same (h : Stuck cap s) (hbuf : t.rxbuf = s.rxbuf) (hparams : t.params = s.params) : Stuck cap t := by
  obtain ⟨hcap, hfull, hsync, hunfinished⟩ := h
  rw [← hbuf] at hfull hsync hunfinished
  exact ⟨hparams ▸ hcap, hfull, hsync, hunfinished⟩

/-- No byte fits any more (40_crc_framing.md R102), ... -/
theorem Stuck.exec_push (h : Stuck cap s) {bs : List Byte} (hbs : bs ≠ []) :
    exec (.push bs) s = faults s (.bufferFull cap bs.length) := by
  have hpos := List.length_pos_iff.mpr hbs
  have hnofit : fitsCap s.params.rxbufCap (s.rxbuf.length + bs.length) = false :=
    fitsCap_eq_false_iff.mpr ⟨cap, h.capacity, by rw [h.full]; omega⟩
  rw [exec_push_full hnofit, h.full]

/-- ... so that no `PUSH` writes RXBUF: the empty one appends nothing, and every other one faults. -/
theorem Stuck.pushBytes_rxbuf (h : Stuck cap s) (bs : List Byte) : (pushBytes bs s).rxbuf = s.rxbuf := by
  by_cases hbs : bs = []
  · subst hbs
    have hfits : fitsCap s.params.rxbufCap (s.rxbuf.length + 0) = true := by simp [fitsCap, h.capacity, h.full]
    simp [pushBytes_fits (bs := []) hfits]
  · rw [Host.Outcome.next.inj (h.exec_push hbs)]
    rfl

/-- `PUSH` keeps the block stuck. -/
theorem Stuck.after_push (h : Stuck cap s) (bs : List Byte) : Stuck cap (pushBytes bs s) :=
  h.of_same (h.pushBytes_rxbuf bs) (pushBytes_frame bs s).1.1

/-- `PARSE` reports INCOMPLETE, and by the sync byte it leaves RXBUF (20_memory.md R45). -/
theorem Stuck.exec_parse (h : Stuck cap s) :
    ∃ t, exec .parse s = .next t ∧ reportOf t = .incomplete ∧ t.rxbuf = s.rxbuf ∧ Stuck cap t := by
  obtain ⟨c, hin, hc⟩ := h.unfinished
  have hbuf : (c.after s).rxbuf = s.rxbuf := by simpa using hin.rest_of_sync hc h.sync_mem s.params.crcDiscard
  exact ⟨c.after s, exec_parse_of_inCase hin, by simpa using hc, hbuf, h.of_same hbuf (c.after_params s)⟩

/-- No run of pushes and parses gets the block out: every state on the way is stuck with the same RXBUF. -/
theorem Stuck.run (h : Stuck cap s) (as : List RxAction) :
    ∃ reports t, runActions as s = some (reports, t) ∧ t.rxbuf = s.rxbuf ∧ (∀ r ∈ reports, r = .incomplete) ∧
      Stuck cap t := by
  induction as generalizing s with
  | nil => exact ⟨[], s, rfl, rfl, nofun, h⟩
  | cons a as ih =>
    cases a with
    | push bs =>
      obtain ⟨reports, t, hrun, hbuf, hreports, ht⟩ := ih (h.after_push bs)
      exact ⟨reports, t, hrun, hbuf.trans (h.pushBytes_rxbuf bs), hreports, ht⟩
    | parse =>
      obtain ⟨u, hparse, hreport, hubuf, hu⟩ := h.exec_parse
      obtain ⟨reports, t, hrun, hbuf, hreports, ht⟩ := ih hu
      refine ⟨.incomplete :: reports, t, ?_, hbuf.trans hubuf, List.forall_mem_cons.mpr ⟨rfl, hreports⟩, ht⟩
      simp [runActions, hparse, hrun, hreport]

end

/-- Settles O33: every run from a stuck state ends in a stuck state, where no byte fits. -/
theorem fullBufferWithUnfinishedFrameIsStuck : Obligations.FullBufferWithUnfinishedFrameIsStuck := by
  intro s s' cap hcap hfull hsync hparse hst
  have hstuck := stuck_of_parse hcap hfull hsync hparse hst
  refine ⟨fun as => ?_, resetBlock s, rfl, rfl⟩
  obtain ⟨reports, t, hrun, hbuf, hreports, ht⟩ := hstuck.run as
  exact ⟨reports, t, hrun, hbuf, hreports, fun _ hbs => ht.exec_push hbs⟩

/-! ## A response taken for a request -/

/-- A slice of one byte is that byte. -/
theorem sliceBytes_one {bs : List Byte} {i : Nat} {b : Byte} (h : bs[i]? = some b) : sliceBytes bs i 1 = [b] := by
  obtain ⟨hi, rfl⟩ := List.getElem?_eq_some_iff.mp h
  rw [sliceBytes, List.drop_eq_getElem_cons hi, List.take_succ_cons, List.take_zero]

/-- A slice within the bytes has the length it was asked for. -/
theorem sliceBytes_length {bs : List Byte} {i n : Nat} (h : i + n ≤ bs.length) : (sliceBytes bs i n).length = n := by
  rw [sliceBytes, List.length_take, List.length_drop]
  omega

section
variable {p : Packet} {la : Address}

/-- The data of the response to a UTE telegram: the telegram kind stands where the request had it (44_responder.md
R171). -/
theorem buildUteResp_data (hute : uteTelegram p) (la : Address) :
    (buildUteResp p la).data = [0xD4, 0x91] ++ sliceBytes p.data 2 6 ++ la ++ [0x00] := by
  obtain ⟨-, -, hrorg⟩ := hute
  rw [buildUteResp, sliceBytes_one hrorg]
  rfl

/-- So it is a UTE telegram itself. -/
theorem uteTelegram_buildUteResp (hute : uteTelegram p) (hla : la.length = 4) : uteTelegram (buildUteResp p la) := by
  have hdata := buildUteResp_data hute la
  obtain ⟨-, hlen, -⟩ := hute
  have hecho : (sliceBytes p.data 2 6).length = 6 := sliceBytes_length (by omega)
  exact ⟨rfl, by simp [hdata, hecho, hla], by simp [hdata]⟩

/-- The data of the response to a BS4 telegram: BS4_RESP_DB0 stands where the request had its discriminator (R172). -/
theorem buildBs4Resp_data (hbs4 : bs4Telegram p) (la : Address) :
    (buildBs4Resp p la).data = [0xA5] ++ sliceBytes p.data 1 3 ++ [0xF0] ++ la ++ [0x00] := by
  obtain ⟨-, -, hrorg⟩ := hbs4
  rw [buildBs4Resp, sliceBytes_one hrorg]

/-- So it is a BS4 telegram itself, and a query: bit 3 of BS4_RESP_DB0 is clear (30_encoding.md R73). -/
theorem bs4Query_buildBs4Resp (hbs4 : bs4Telegram p) (hla : la.length = 4) :
    bs4Telegram (buildBs4Resp p la) ∧ queryBit (buildBs4Resp p la).data = some false := by
  have hdata := buildBs4Resp_data hbs4 la
  obtain ⟨-, hlen, -⟩ := hbs4
  have hecho : (sliceBytes p.data 1 3).length = 3 := sliceBytes_length (by omega)
  have hdb0 : (buildBs4Resp p la).data[4]? = some 0xF0 := by simp [hdata, hecho]
  exact ⟨⟨rfl, by simp [hdata, hecho, hla], by simp [hdata]⟩, queryBit_eq_some_iff.mpr ⟨0xF0, hdb0, by decide⟩⟩

/-- A packet `RESPOND` hands over passes the same half of its gate as the request did, for whichever address comes
next. -/
theorem respondOf_response {r : Packet} {en : Bool} {la' : Address} (h : respondOf en la p = .packet r)
    (hla' : la'.length = 4) : classifyPacket r = classifyPacket p ∧ ∃ r', respondOf true la' r = .packet r' := by
  obtain habsent | ⟨-, hla, hute, hresponse⟩ | ⟨-, hla, ⟨hbs4, hquery⟩, hresponse⟩ := respondOf_inv en la p
  · cases habsent.symm.trans h
  · cases hresponse.symm.trans h
    have hagain := uteTelegram_buildUteResp hute hla
    obtain ⟨htag, -⟩ := uteGate_iff.mpr hute
    obtain ⟨htagAgain, -⟩ := uteGate_iff.mpr hagain
    exact ⟨htagAgain.trans htag.symm, _, respondOf_ute hagain hla'⟩
  · cases hresponse.symm.trans h
    obtain ⟨hagain, hqueryAgain⟩ := bs4Query_buildBs4Resp hbs4 hla
    obtain ⟨htag, -⟩ := bs4Gate_iff.mpr ⟨hbs4, hquery⟩
    obtain ⟨htagAgain, -⟩ := bs4Gate_iff.mpr ⟨hagain, hqueryAgain⟩
    exact ⟨htagAgain.trans htag.symm, _, respondOf_bs4 hagain hqueryAgain hla'⟩

end

/-- Settles O47: what `RESPOND` hands over passes the gate again (70_reset_and_hazards.md R244). -/
theorem responsesAreAnsweredAgain : Obligations.ResponsesAreAnsweredAgain := by
  intro p r la la' s hla' hrespond
  rw [exec_respond (packetOf_value p s), hands_inj] at hrespond
  obtain ⟨htag, r', hagain⟩ := respondOf_response hrespond hla'
  refine ⟨htag, r', ?_⟩
  rw [exec_respond (packetOf_value r s), hagain]

/-! ## The request's result bits -/

/-- A pure operation is a function of the packet: two packets it makes the same of are interchangeable. -/
theorem onPacket_congr_value {f : Packet → Except OpFault Result} {p q : Packet} (h : f q = f p) (s : State) :
    onPacket (.value q) f s = onPacket (.value p) f s := by
  simp only [onPacket, packetOf_value, h]

/-- A slice does not see a byte that stands before it or behind it. -/
theorem sliceBytes_set {bs : List Byte} {i n k : Nat} (x : Byte) (h : k < i ∨ i + n ≤ k) :
    sliceBytes (bs.set k x) i n = sliceBytes bs i n := by
  obtain hbefore | hbehind := h
  · rw [sliceBytes, List.drop_set_of_lt hbefore, sliceBytes]
  · rw [sliceBytes, sliceBytes, List.drop_set, if_neg (by omega), List.take_set_of_le (by omega)]

section
variable {p : Packet} (x : Byte)

/-- The test of R140 does not see DB6, ... -/
theorem uteTelegram_set : uteTelegram p → uteTelegram { p with data := p.data.set 1 x } := by
  rintro ⟨htype, hlen, hrorg⟩
  exact ⟨htype, by simpa using hlen, by simpa using hrorg⟩

/-- ... and nor does the response (R171): DB6 is neither echoed nor one of the sender's bytes. -/
theorem buildUteResp_set (hute : uteTelegram p) (la : Address) :
    buildUteResp { p with data := p.data.set 1 x } la = buildUteResp p la := by
  obtain ⟨-, hlen, -⟩ := hute
  simp [buildUteResp, respOpt, senderBytes, hlen, sliceBytes_set]

/-- `UTE.RESP` of a UTE telegram is constant in DB6 (R245). -/
theorem uteRespOf_set (hute : uteTelegram p) (la : Address) :
    uteRespOf la { p with data := p.data.set 1 x } = uteRespOf la p := by
  by_cases hla : la.length = 4
  · rw [uteRespOf_ok (uteTelegram_set x hute) hla, uteRespOf_ok hute hla, buildUteResp_set x hute]
  · rw [uteRespOf_badAddress (uteTelegram_set x hute) hla, uteRespOf_badAddress hute hla]

/-- The test of R160 does not see byte 4, ... -/
theorem bs4Telegram_set : bs4Telegram p → bs4Telegram { p with data := p.data.set 4 x } := by
  rintro ⟨htype, hlen, hrorg⟩
  exact ⟨htype, by simpa using hlen, by simpa using hrorg⟩

/-- ... of which the query bit is bit 3 ... -/
theorem queryBit_set {data : List Byte} (h : 4 < data.length) : queryBit (data.set 4 x) = some (x.getLsbD 3) :=
  queryBit_eq_some_iff.mpr ⟨x, List.getElem?_set_self h, rfl⟩

/-- ... and nothing is in the response (R172). -/
theorem buildBs4Resp_set (hbs4 : bs4Telegram p) (la : Address) :
    buildBs4Resp { p with data := p.data.set 4 x } la = buildBs4Resp p la := by
  obtain ⟨-, hlen, -⟩ := hbs4
  simp [buildBs4Resp, respOpt, senderBytes, hlen, sliceBytes_set]

/-- `BS4.RESP` of a query is constant in byte 4 as long as that leaves it a query (R245). -/
theorem bs4RespOf_set (hbs4 : bs4Telegram p) (hquery : queryBit p.data = some false) (hx : x.getLsbD 3 = false)
    (la : Address) : bs4RespOf la { p with data := p.data.set 4 x } = bs4RespOf la p := by
  have hbs4' := bs4Telegram_set x hbs4
  have hquery' : queryBit (p.data.set 4 x) = some false := by
    obtain ⟨-, hlen, -⟩ := hbs4
    rw [queryBit_set x (by omega), hx]
  by_cases hla : la.length = 4
  · rw [bs4RespOf_ok hbs4' hquery' hla, bs4RespOf_ok hbs4 hquery hla, buildBs4Resp_set x hbs4]
  · rw [bs4RespOf_badAddress hbs4' hquery' hla, bs4RespOf_badAddress hbs4 hquery hla]

end

/-- Settles O48: each encoder makes the same of the two requests. -/
theorem responsesIgnoreTheRequestBits : Obligations.ResponsesIgnoreTheRequestBits := by
  intro p la x s
  refine ⟨fun hute => ?_, fun hbs4 hx hquery => ?_⟩
  · exact onPacket_congr_value (uteRespOf_set x hute la) s
  · exact onPacket_congr_value (bs4RespOf_set x hbs4 (queryBit_eq_some_iff.mpr hquery) hx la) s

/-! ## RESET and power-on -/

/-- A `PARSE` of the empty buffer is in case A: it empties what is empty and reports INCOMPLETE
(40_crc_framing.md R103). -/
theorem exec_parse_empty {s : State} (h : s.rxbuf = []) :
    ∃ t, exec .parse s = .next t ∧ t.rxbuf = [] ∧ reportsNoPacket .incomplete s t := by
  have hin : InCase s.rxbuf .noSync := .noSync (by simp [h])
  exact ⟨_, exec_parse_of_inCase hin, rfl, rfl, rfl, rfl, rfl, rfl⟩

/-- Settles O8: `RESET` leaves the buffer empty, and the `PARSE` after it finds it so. -/
theorem resetEmptiesTheBlock : Obligations.ResetEmptiesTheBlock := by
  refine ⟨fun s => ?_, ⟨rfl, rfl, rfl⟩, rfl⟩
  exact ⟨resetBlock s, rfl, rfl, rfl, rfl, rfl, ⟨rfl, rfl⟩, exec_parse_empty (resetBlock_rxbuf s)⟩

end Sys2Proof.Machine
end
